-- ==== Sys2Proof/Word.lean ====
section
/-! DEFINITION. The machine's words: bytes (R21, R50), 16-bit values (R24, R26, R80), 12-bit addresses (R82). -/

namespace Sys2Proof

/-- An 8-bit value: a general register, a timer, a memory cell (R21, R28, R29, R50). -/
abbrev Byte := BitVec 8

/-- A 16-bit value: `PC`, `I`, a stack entry, an instruction word (R24, R26, R30, R80). -/
abbrev Word := BitVec 16

/-- The 12-bit address operand `NNN` (R82). -/
abbrev Addr := BitVec 12

end Sys2Proof
end

