-- ==== Sys2Proof/Syntax.lean ====
section
/-! DEFINITION. The 34 instructions of the opcode map (R85), one constructor per row of spec/opcode_table.json.
Operands are those of R82: registers `X`, `Y` as numbers below 16, `NN` and `NNN` as bit fields, the sprite height
`N` as a count. -/

namespace Sys2Proof

/-- The number of a general register, `V0` to `VF` (R9, R21). -/
abbrev Reg := Fin 16

/-- `VF`, the register that doubles as the flag (R22). -/
abbrev Reg.vf : Reg := 15

/-- One instruction (R85). `8XY6` and `8XYE` keep their `Y` field although nothing reads it (R88, R148). -/
inductive Instr where
  /-- `00E0` CLS (R181). -/
  | cls
  /-- `00EE` RET (R121). -/
  | ret
  /-- `1NNN` JP NNN (R122). -/
  | jp (nnn : Addr)
  /-- `2NNN` CALL NNN (R123). -/
  | call (nnn : Addr)
  /-- `3XNN` SE VX, NN (R124). -/
  | seImm (x : Reg) (nn : Byte)
  /-- `4XNN` SNE VX, NN (R125). -/
  | sneImm (x : Reg) (nn : Byte)
  /-- `5XY0` SE VX, VY (R126). -/
  | seReg (x y : Reg)
  /-- `6XNN` LD VX, NN (R140). -/
  | ldImm (x : Reg) (nn : Byte)
  /-- `7XNN` ADD VX, NN (R141). -/
  | addImm (x : Reg) (nn : Byte)
  /-- `8XY0` LD VX, VY (R142). -/
  | ldReg (x y : Reg)
  /-- `8XY1` OR VX, VY (R143). -/
  | or (x y : Reg)
  /-- `8XY2` AND VX, VY (R144). -/
  | and (x y : Reg)
  /-- `8XY3` XOR VX, VY (R145). -/
  | xor (x y : Reg)
  /-- `8XY4` ADD VX, VY (R146). -/
  | add (x y : Reg)
  /-- `8XY5` SUB VX, VY (R147). -/
  | sub (x y : Reg)
  /-- `8XY6` SHR VX (R148); `y` is in the word and is not read. -/
  | shr (x y : Reg)
  /-- `8XY7` SUBN VX, VY (R149). -/
  | subn (x y : Reg)
  /-- `8XYE` SHL VX (R150); `y` is in the word and is not read. -/
  | shl (x y : Reg)
  /-- `9XY0` SNE VX, VY (R127). -/
  | sneReg (x y : Reg)
  /-- `ANNN` LD I, NNN (R160). -/
  | ldI (nnn : Addr)
  /-- `BNNN` JP V0, NNN (R128). -/
  | jpV0 (nnn : Addr)
  /-- `CXNN` RND VX, NN (R151). -/
  | rnd (x : Reg) (nn : Byte)
  /-- `DXYN` DRW VX, VY, N (R183). -/
  | drw (x y : Reg) (n : Nat)
  /-- `EX9E` SKP VX (R191). -/
  | skp (x : Reg)
  /-- `EXA1` SKNP VX (R192). -/
  | sknp (x : Reg)
  /-- `FX07` LD VX, DT (R194). -/
  | ldVxDt (x : Reg)
  /-- `FX0A` LD VX, K (R193). -/
  | ldVxK (x : Reg)
  /-- `FX15` LD DT, VX (R195). -/
  | ldDtVx (x : Reg)
  /-- `FX18` LD ST, VX (R196). -/
  | ldStVx (x : Reg)
  /-- `FX1E` ADD I, VX (R161). -/
  | addI (x : Reg)
  /-- `FX29` LD F, VX (R162). -/
  | ldF (x : Reg)
  /-- `FX33` LD B, VX (R163). -/
  | ldB (x : Reg)
  /-- `FX55` LD [I], VX (R164). -/
  | ldMemVx (x : Reg)
  /-- `FX65` LD VX, [I] (R165). -/
  | ldVxMem (x : Reg)
  deriving DecidableEq, Repr

end Sys2Proof
end

