-- ==== Sys2Proof/Decode.lean ====
section
/-! DEFINITION. From instruction words to instructions and back: the fields of R81 and R82, the decision tree of R86,
the same map as the mask-and-match table of R85, and an encoder written from that table. -/

namespace Sys2Proof

/-- The instruction word made of the byte at the lower address and the next one: big-endian (R53). -/
def wordOfBytes (hi lo : Byte) : Word := hi ++ lo

/-- The byte of an instruction word that stands at the lower address (R53). -/
def wordHigh (w : Word) : Byte := w.extractLsb' 8 8

/-- The byte of an instruction word that stands at the higher address (R53). -/
def wordLow (w : Word) : Byte := w.extractLsb' 0 8

/-- A 4-bit field read as a register number (R82). -/
def regOfNibble (b : BitVec 4) : Reg := ⟨b.toNat, b.isLt⟩

/-- A register number as the 4-bit field that holds it (R82). -/
def nibbleOfReg (x : Reg) : BitVec 4 := BitVec.ofNat 4 x.val

/-- `n0` = `op[15:12]` (R81). -/
def fieldN0 (w : Word) : BitVec 4 := w.extractLsb' 12 4

/-- `n1` = `op[11:8]` (R81). -/
def fieldN1 (w : Word) : BitVec 4 := w.extractLsb' 8 4

/-- `n2` = `op[7:4]` (R81). -/
def fieldN2 (w : Word) : BitVec 4 := w.extractLsb' 4 4

/-- `n3` = `op[3:0]` (R81). -/
def fieldN3 (w : Word) : BitVec 4 := w.extractLsb' 0 4

/-- Operand `X` (R82). -/
def fieldX (w : Word) : Reg := regOfNibble (fieldN1 w)

/-- Operand `Y` (R82). -/
def fieldY (w : Word) : Reg := regOfNibble (fieldN2 w)

/-- Operand `N`, the sprite height (R82). -/
def fieldN (w : Word) : Nat := (fieldN3 w).toNat

/-- Operand `NN` = `op[7:0]` (R82). -/
def fieldNN (w : Word) : Byte := w.extractLsb' 0 8

/-- Operand `NNN` = `op[11:0]` (R82). -/
def fieldNNN (w : Word) : Addr := w.extractLsb' 0 12

/-- Why bytes are no instruction. -/
inductive DecodeReject where
  /-- The word selects none of the 34 instructions (R84, R87). -/
  | unrecognizedOpcode (op : Word)
  /-- Fewer than two bytes were given: no word (R80). -/
  | tooFewBytes
  deriving DecidableEq, Repr

/-- The instruction a word selects, as the decision tree of R86 reads it; every other word is rejected (R87). -/
def decodeWord (w : Word) : Except DecodeReject Instr :=
  match (fieldN0 w).toNat with
  | 0x0 =>
    if w = 0x00E0#16 then .ok .cls
    else if w = 0x00EE#16 then .ok .ret
    else .error (.unrecognizedOpcode w)
  | 0x1 => .ok (.jp (fieldNNN w))
  | 0x2 => .ok (.call (fieldNNN w))
  | 0x3 => .ok (.seImm (fieldX w) (fieldNN w))
  | 0x4 => .ok (.sneImm (fieldX w) (fieldNN w))
  | 0x5 =>
    if fieldN3 w = 0x0#4 then .ok (.seReg (fieldX w) (fieldY w))
    else .error (.unrecognizedOpcode w)
  | 0x6 => .ok (.ldImm (fieldX w) (fieldNN w))
  | 0x7 => .ok (.addImm (fieldX w) (fieldNN w))
  | 0x8 =>
    match (fieldN3 w).toNat with
    | 0x0 => .ok (.ldReg (fieldX w) (fieldY w))
    | 0x1 => .ok (.or (fieldX w) (fieldY w))
    | 0x2 => .ok (.and (fieldX w) (fieldY w))
    | 0x3 => .ok (.xor (fieldX w) (fieldY w))
    | 0x4 => .ok (.add (fieldX w) (fieldY w))
    | 0x5 => .ok (.sub (fieldX w) (fieldY w))
    | 0x6 => .ok (.shr (fieldX w) (fieldY w))
    | 0x7 => .ok (.subn (fieldX w) (fieldY w))
    | 0xE => .ok (.shl (fieldX w) (fieldY w))
    | _ => .error (.unrecognizedOpcode w)
  | 0x9 =>
    if fieldN3 w = 0x0#4 then .ok (.sneReg (fieldX w) (fieldY w))
    else .error (.unrecognizedOpcode w)
  | 0xA => .ok (.ldI (fieldNNN w))
  | 0xB => .ok (.jpV0 (fieldNNN w))
  | 0xC => .ok (.rnd (fieldX w) (fieldNN w))
  | 0xD => .ok (.drw (fieldX w) (fieldY w) (fieldN w))
  | 0xE =>
    match (fieldNN w).toNat with
    | 0x9E => .ok (.skp (fieldX w))
    | 0xA1 => .ok (.sknp (fieldX w))
    | _ => .error (.unrecognizedOpcode w)
  | 0xF =>
    match (fieldNN w).toNat with
    | 0x07 => .ok (.ldVxDt (fieldX w))
    | 0x0A => .ok (.ldVxK (fieldX w))
    | 0x15 => .ok (.ldDtVx (fieldX w))
    | 0x18 => .ok (.ldStVx (fieldX w))
    | 0x1E => .ok (.addI (fieldX w))
    | 0x29 => .ok (.ldF (fieldX w))
    | 0x33 => .ok (.ldB (fieldX w))
    | 0x55 => .ok (.ldMemVx (fieldX w))
    | 0x65 => .ok (.ldVxMem (fieldX w))
    | _ => .error (.unrecognizedOpcode w)
  | _ => .error (.unrecognizedOpcode w)

/-- The instruction at the head of a list of bytes, with the bytes after it: two bytes, the high one first
(R53, R80). -/
def decode : List Byte → Except DecodeReject (Instr × List Byte)
  | hi :: lo :: rest =>
    match decodeWord (wordOfBytes hi lo) with
    | .ok i => .ok (i, rest)
    | .error r => .error r
  | _ => .error .tooFewBytes

/-- The word of an instruction: the match value of its row in R85 with its operands in the fields of R83. -/
def encode : Instr → Word
  | .cls => 0x00E0#16
  | .ret => 0x00EE#16
  | .jp nnn => 0x1#4 ++ nnn
  | .call nnn => 0x2#4 ++ nnn
  | .seImm x nn => 0x3#4 ++ nibbleOfReg x ++ nn
  | .sneImm x nn => 0x4#4 ++ nibbleOfReg x ++ nn
  | .seReg x y => 0x5#4 ++ nibbleOfReg x ++ nibbleOfReg y ++ 0x0#4
  | .ldImm x nn => 0x6#4 ++ nibbleOfReg x ++ nn
  | .addImm x nn => 0x7#4 ++ nibbleOfReg x ++ nn
  | .ldReg x y => 0x8#4 ++ nibbleOfReg x ++ nibbleOfReg y ++ 0x0#4
  | .or x y => 0x8#4 ++ nibbleOfReg x ++ nibbleOfReg y ++ 0x1#4
  | .and x y => 0x8#4 ++ nibbleOfReg x ++ nibbleOfReg y ++ 0x2#4
  | .xor x y => 0x8#4 ++ nibbleOfReg x ++ nibbleOfReg y ++ 0x3#4
  | .add x y => 0x8#4 ++ nibbleOfReg x ++ nibbleOfReg y ++ 0x4#4
  | .sub x y => 0x8#4 ++ nibbleOfReg x ++ nibbleOfReg y ++ 0x5#4
  | .shr x y => 0x8#4 ++ nibbleOfReg x ++ nibbleOfReg y ++ 0x6#4
  | .subn x y => 0x8#4 ++ nibbleOfReg x ++ nibbleOfReg y ++ 0x7#4
  | .shl x y => 0x8#4 ++ nibbleOfReg x ++ nibbleOfReg y ++ 0xE#4
  | .sneReg x y => 0x9#4 ++ nibbleOfReg x ++ nibbleOfReg y ++ 0x0#4
  | .ldI nnn => 0xA#4 ++ nnn
  | .jpV0 nnn => 0xB#4 ++ nnn
  | .rnd x nn => 0xC#4 ++ nibbleOfReg x ++ nn
  | .drw x y n => 0xD#4 ++ nibbleOfReg x ++ nibbleOfReg y ++ BitVec.ofNat 4 n
  | .skp x => 0xE#4 ++ nibbleOfReg x ++ 0x9E#8
  | .sknp x => 0xE#4 ++ nibbleOfReg x ++ 0xA1#8
  | .ldVxDt x => 0xF#4 ++ nibbleOfReg x ++ 0x07#8
  | .ldVxK x => 0xF#4 ++ nibbleOfReg x ++ 0x0A#8
  | .ldDtVx x => 0xF#4 ++ nibbleOfReg x ++ 0x15#8
  | .ldStVx x => 0xF#4 ++ nibbleOfReg x ++ 0x18#8
  | .addI x => 0xF#4 ++ nibbleOfReg x ++ 0x1E#8
  | .ldF x => 0xF#4 ++ nibbleOfReg x ++ 0x29#8
  | .ldB x => 0xF#4 ++ nibbleOfReg x ++ 0x33#8
  | .ldMemVx x => 0xF#4 ++ nibbleOfReg x ++ 0x55#8
  | .ldVxMem x => 0xF#4 ++ nibbleOfReg x ++ 0x65#8

/-- The two bytes of an instruction as memory holds them, the high one at the lower address (R53). -/
def encodeBytes (i : Instr) : List Byte := [wordHigh (encode i), wordLow (encode i)]

/-- One row of the opcode map (R85): a word selects it when `word & mask = value`. -/
structure OpcodeRow where
  mnemonic : String
  mask : Word
  value : Word
  deriving DecidableEq, Repr

/-- The opcode map of R85, row by row, with the mnemonics of spec/opcode_table.json. -/
def opcodeTable : List OpcodeRow :=
  [⟨"CLS", 0xFFFF, 0x00E0⟩, ⟨"RET", 0xFFFF, 0x00EE⟩, ⟨"JP_NNN", 0xF000, 0x1000⟩, ⟨"CALL_NNN", 0xF000, 0x2000⟩,
   ⟨"SE_VX__NN", 0xF000, 0x3000⟩, ⟨"SNE_VX__NN", 0xF000, 0x4000⟩, ⟨"SE_VX__VY", 0xF00F, 0x5000⟩,
   ⟨"LD_VX__NN", 0xF000, 0x6000⟩, ⟨"ADD_VX__NN", 0xF000, 0x7000⟩] ++
  [⟨"LD_VX__VY", 0xF00F, 0x8000⟩, ⟨"OR_VX__VY", 0xF00F, 0x8001⟩, ⟨"AND_VX__VY", 0xF00F, 0x8002⟩,
   ⟨"XOR_VX__VY", 0xF00F, 0x8003⟩, ⟨"ADD_VX__VY", 0xF00F, 0x8004⟩, ⟨"SUB_VX__VY", 0xF00F, 0x8005⟩,
   ⟨"SHR_VX", 0xF00F, 0x8006⟩, ⟨"SUBN_VX__VY", 0xF00F, 0x8007⟩, ⟨"SHL_VX", 0xF00F, 0x800E⟩] ++
  [⟨"SNE_VX__VY", 0xF00F, 0x9000⟩, ⟨"LD_I__NNN", 0xF000, 0xA000⟩, ⟨"JP_V0__NNN", 0xF000, 0xB000⟩,
   ⟨"RND_VX__NN", 0xF000, 0xC000⟩, ⟨"DRW_VX__VY__N", 0xF000, 0xD000⟩, ⟨"SKP_VX", 0xF0FF, 0xE09E⟩,
   ⟨"SKNP_VX", 0xF0FF, 0xE0A1⟩] ++
  [⟨"LD_VX__DT", 0xF0FF, 0xF007⟩, ⟨"LD_VX__K", 0xF0FF, 0xF00A⟩, ⟨"LD_DT__VX", 0xF0FF, 0xF015⟩,
   ⟨"LD_ST__VX", 0xF0FF, 0xF018⟩, ⟨"ADD_I__VX", 0xF0FF, 0xF01E⟩, ⟨"LD_F__VX", 0xF0FF, 0xF029⟩,
   ⟨"LD_B__VX", 0xF0FF, 0xF033⟩, ⟨"LD__I___VX", 0xF0FF, 0xF055⟩, ⟨"LD_VX___I", 0xF0FF, 0xF065⟩]

/-- The row an instruction belongs to, by its mnemonic in spec/opcode_table.json. -/
def mnemonicOf : Instr → String
  | .cls => "CLS"
  | .ret => "RET"
  | .jp _ => "JP_NNN"
  | .call _ => "CALL_NNN"
  | .seImm _ _ => "SE_VX__NN"
  | .sneImm _ _ => "SNE_VX__NN"
  | .seReg _ _ => "SE_VX__VY"
  | .ldImm _ _ => "LD_VX__NN"
  | .addImm _ _ => "ADD_VX__NN"
  | .ldReg _ _ => "LD_VX__VY"
  | .or _ _ => "OR_VX__VY"
  | .and _ _ => "AND_VX__VY"
  | .xor _ _ => "XOR_VX__VY"
  | .add _ _ => "ADD_VX__VY"
  | .sub _ _ => "SUB_VX__VY"
  | .shr _ _ => "SHR_VX"
  | .subn _ _ => "SUBN_VX__VY"
  | .shl _ _ => "SHL_VX"
  | .sneReg _ _ => "SNE_VX__VY"
  | .ldI _ => "LD_I__NNN"
  | .jpV0 _ => "JP_V0__NNN"
  | .rnd _ _ => "RND_VX__NN"
  | .drw _ _ _ => "DRW_VX__VY__N"
  | .skp _ => "SKP_VX"
  | .sknp _ => "SKNP_VX"
  | .ldVxDt _ => "LD_VX__DT"
  | .ldVxK _ => "LD_VX__K"
  | .ldDtVx _ => "LD_DT__VX"
  | .ldStVx _ => "LD_ST__VX"
  | .addI _ => "ADD_I__VX"
  | .ldF _ => "LD_F__VX"
  | .ldB _ => "LD_B__VX"
  | .ldMemVx _ => "LD__I___VX"
  | .ldVxMem _ => "LD_VX___I"

/-- The row of the opcode map a word selects, by mask and match (R84); `none` for an unrecognised word. -/
def rowOfWord (w : Word) : Option OpcodeRow := opcodeTable.find? fun r => w &&& r.mask == r.value

/-- The instruction the decoder reads from an instruction whose `nbits` bits are `w`, numbered as
spec/opcode_table.json numbers them (bit 0 the least significant bit of the one word); its two bytes are laid out
high byte first and given to `decode`. -/
def decodeTableWord (nbits w : Nat) : Option Instr :=
  let op : Word := BitVec.ofNat 16 (w % 2 ^ nbits)
  match decode [wordHigh op, wordLow op] with
  | .ok (i, _) => some i
  | .error _ => none

end Sys2Proof
end

