-- ==== Sys2Proof/Machine/Event.lean ====
section
/-! DEFINITION. The display surface as data, and the moves of the four agents (R4, R100). -/

namespace Sys2Proof.Machine

/-- The display surface (R33): one entry per row, top row first; bit `x` of an entry is the pixel of column `x`
(log 33). -/
abbrev Framebuffer := Vector (BitVec 64) 32

/-- The display surface with every pixel off. -/
def Framebuffer.allOff : Framebuffer := Vector.replicate 32 0#64

/-- One move of one of the four agents (R4, R100). -/
inductive Event where
  /-- The CPU makes one step (R101). -/
  | cpuStep
  /-- The timer agent decrements both timers (R230). -/
  | timerTick
  /-- The input collaborator drives the 16 key flags (R108). -/
  | setKeys (keys : Word)
  /-- The host applies reset with a ROM image; the surface then shows `fbInit` (R250, R33). -/
  | reset (rom : List Byte) (fbInit : Framebuffer)
  deriving DecidableEq, Repr

end Sys2Proof.Machine
end

