-- ==== Sys2Proof/Config.lean ====
section
/-! DEFINITION. The parameters of R5 that the rules read, and the free values of the machine. `FONT_BASE` and
`FONT_DATA` are in Machine/Font.lean; `TIMER_HZ` and `CPU_HZ` are read by no rule (R270, log 34). -/

namespace Sys2Proof.Config

/-- `MEM_SIZE`: addresses 0x000 to 0xFFF exist and no other (R5, R50). -/
abbrev memSize : Nat := 4096

/-- `ROM_BASE`: where the ROM image is loaded and where the first instruction is fetched (R5, R41, R61). -/
abbrev romBase : Nat := 0x200

/-- `ROM_MAX_LEN` = 4096 − 0x200 (R5, R254). -/
abbrev romMaxLen : Nat := 3584

/-- `STACK_DEPTH` (R5, R30; the spec's decision D4). -/
abbrev stackDepth : Nat := 16

/-- `FB_W`: columns of the display surface (R5, R33). -/
abbrev fbWidth : Nat := 64

/-- `FB_H`: rows of the display surface (R5, R33). -/
abbrev fbHeight : Nat := 32

/-- The `k`-th byte the random source delivers: a FREE VALUE with no body, since every value 0..255 is possible at
every draw and successive values obey no law (R36, R151, D14; log 1). -/
opaque randByte : Nat → Byte

/-- What the agents do in the `k`-th round of moves before its CPU step: a FREE VALUE with no body, since an execution is any
sequence of steps of the agents (R109, D20; log 42). -/
opaque movesBeforeStep : Nat → List Machine.Event

/-- What the agents do in the `k`-th round of moves between that CPU step and the round's timer tick: a FREE VALUE with no
body (R109, D20; log 42). -/
opaque movesBeforeTick : Nat → List Machine.Event

end Sys2Proof.Config
end

