-- ==== Sys2Proof/Machine/State.lean ====
section
/-! DEFINITION. The state of the machine: everything R20 lists, as plain data, the three fields of the model's own
(`randIndex`, `schedule`, `round`), the ways a step can stop, and the state after reset (R41). -/

namespace Sys2Proof.Machine

/-- Main memory (R32, R50): the cells that differ from what an unlisted address reads as (`Memory.initial`), in
strictly rising order of address. -/
abbrev Memory := List Host.Cell

/-- The cause of the first and only fault (R38, R211). -/
inductive FaultCause where
  /-- No fault: the core is running. -/
  | none
  /-- A word that matches no row of the opcode map (R212). -/
  | unrecognizedOpcode
  /-- `00EE` with an empty stack (R213). -/
  | stackUnderflow
  /-- An access above 0xFFF (R214). -/
  | memOutOfRange
  /-- A key test with `V[X] > 15` (R215). -/
  | invalidKeyIndex
  /-- `2NNN` with a full stack (R216). -/
  | stackOverflow
  deriving DecidableEq, Repr

/-- The complete state (R20). -/
structure State where
  /-- `V[0]` to `V[15]`; `V[15]` is `VF` (R21, R22). -/
  v : Vector Byte 16
  /-- The program counter (R24). -/
  pc : Word
  /-- The index register `I` (R26). -/
  i : Word
  /-- The delay timer (R28). -/
  dt : Byte
  /-- The sound timer (R29). -/
  st : Byte
  /-- `STACK[0]` to `STACK[15]` (R30). -/
  stack : Vector Word 16
  /-- The number of valid stack entries, 0..16 (R31). -/
  sp : Fin 17
  /-- Main memory (R32). -/
  mem : Memory
  /-- The display surface (R33). -/
  fb : Framebuffer
  /-- The pressed-key flags, bit `k` for key `k` (R34). -/
  keys : Word
  /-- A fatal condition has occurred (R37). -/
  halted : Bool
  /-- `fault_cause` (R38). -/
  faultCause : FaultCause
  /-- `fault_pc` (R38). -/
  faultPc : Word
  /-- `fault_op` (R38). -/
  faultOp : Word
  /-- `fault_info` (R38). -/
  faultInfo : Word
  /-- How many `present` events have been emitted (R39). -/
  presentCount : Nat
  /-- The model's own: how many random bytes have been drawn (R36; log 1). -/
  randIndex : Nat
  /-- The model's own: the coming moves of the agents that are settled, the next one first (R109; log 2). -/
  schedule : List Event
  /-- The model's own: how many rounds of free moves have begun; the next one begins when `schedule` is empty (R109;
  log 42). -/
  round : Nat
  deriving DecidableEq, Repr

/-- Why a step stops the model with a fault. There is NO such reason: each fatal condition of this machine has an
entry the spec describes (R221), so it is a next state with `halted` set, and a halted core keeps taking steps that
change nothing (R110). Nothing raises a `Fault`; safe (log 8). -/
inductive Fault where
  deriving DecidableEq, Repr

/-- Why a step has no meaning. -/
inductive Refusal where
  /-- Raised by `exec` for an instruction that has no meaning yet; safe. No arm raises it now. -/
  | notModelled (mnemonic : String)
  /-- Raised by a `reset` move whose ROM image is longer than 3584 bytes: the host must not release reset and the
  core never starts (R218, R254); safe. No instruction raises it. -/
  | romTooLong
  deriving DecidableEq, Repr

/-- The machine as it leaves reset with an empty ROM image (R41, R252): memory holds the font and zeros (nothing is
listed), the registers are zero, `PC` is 0x200. The values the spec leaves open are the model's: the surface is all
off (log 4), no key is pressed (log 3), dead stack entries are 0 (log 5), no move is settled (logs 2, 42). -/
def State.reset : State where
  v := Vector.replicate 16 0#8
  pc := 0x200#16
  i := 0#16
  dt := 0#8
  st := 0#8
  stack := Vector.replicate 16 0#16
  sp := 0
  mem := []
  fb := Framebuffer.allOff
  keys := 0#16
  halted := false
  faultCause := .none
  faultPc := 0#16
  faultOp := 0#16
  faultInfo := 0#16
  presentCount := 0
  randIndex := 0
  schedule := []
  round := 0

end Sys2Proof.Machine
end

