-- ==== Sys2Proof/Machine/Font.lean ====
section
/-! DEFINITION. The parameters `FONT_BASE` and `FONT_DATA` of R5 and R60 (log 7). -/

namespace Sys2Proof.Machine

/-- `FONT_BASE`: the address of the first glyph byte (R60; the spec's decision D2). -/
def fontBase : Nat := 0x000

/-- The bytes of one glyph (R5, R60). -/
def glyphBytes : Nat := 5

/-- `FONT_DATA`: the glyphs of the sixteen hexadecimal digits, five rows each, top row first (the table of R60). -/
def fontData : List Byte :=
  [0xF0, 0x90, 0x90, 0x90, 0xF0] ++ [0x20, 0x60, 0x20, 0x20, 0x70] ++
  [0xF0, 0x10, 0xF0, 0x80, 0xF0] ++ [0xF0, 0x10, 0xF0, 0x10, 0xF0] ++
  [0x90, 0x90, 0xF0, 0x10, 0x10] ++ [0xF0, 0x80, 0xF0, 0x10, 0xF0] ++
  [0xF0, 0x80, 0xF0, 0x90, 0xF0] ++ [0xF0, 0x10, 0x20, 0x40, 0x40] ++
  [0xF0, 0x90, 0xF0, 0x90, 0xF0] ++ [0xF0, 0x90, 0xF0, 0x10, 0xF0] ++
  [0xF0, 0x90, 0xF0, 0x90, 0x90] ++ [0xE0, 0x90, 0xE0, 0x90, 0xE0] ++
  [0xF0, 0x80, 0x80, 0x80, 0xF0] ++ [0xE0, 0x90, 0x90, 0x90, 0xE0] ++
  [0xF0, 0x80, 0xF0, 0x80, 0xF0] ++ [0xF0, 0x80, 0xF0, 0x80, 0x80]

end Sys2Proof.Machine
end

