-- ==== Sys2Proof/Machine/Ops.lean ====
section
/-! DEFINITION. The named operations over memory, registers, stack and display surface; the range check every access
goes through; instruction fetch; fault entry, and the only way out of it, reset. -/

namespace Sys2Proof.Machine

/-! ### Main memory (spec/20_memory.md) -/

/-- What an address that no entry lists reads as: the reset contents with an empty ROM image, that is the font and
zeros (R41, R59; logs 6, 7). -/
def Memory.initial (a : Nat) : Byte :=
  if fontBase ≤ a ∧ a < fontBase + fontData.length then fontData.getD (a - fontBase) 0#8 else 0#8

/-- The listed byte at an address. -/
def Memory.lookup : Memory → Nat → Option Byte
  | [], _ => none
  | (a', b) :: m, a => if a' = a then some b else Memory.lookup m a

/-- `Mem[a]` (R50, R58). The range check stands before every use (`outOfRange`). -/
def Memory.read (m : Memory) (a : Nat) : Byte := (m.lookup a).getD (Memory.initial a)

/-- Lists the byte `b` at `a`, in the place the rising order gives it. -/
def Memory.put : Memory → Nat → Byte → Memory
  | [], a, b => [(a, b)]
  | (a', b') :: m, a, b =>
    if a < a' then (a, b) :: (a', b') :: m
    else if a = a' then (a, b) :: m
    else (a', b') :: Memory.put m a b

/-- Takes every entry at `a` out of the list. -/
def Memory.drop : Memory → Nat → Memory
  | [], _ => []
  | (a', b') :: m, a => if a' = a then Memory.drop m a else (a', b') :: Memory.drop m a

/-- `Mem[a] <- b` (R52, R58): writing what an unlisted address reads as removes the entry. No cell exists at or above
4096, so nothing is written there; every meaning has checked the range before. -/
def Memory.write (m : Memory) (a : Nat) (b : Byte) : Memory :=
  if a < Config.memSize then
    if b = Memory.initial a then m.drop a else m.put a b
  else m

/-- Writes the bytes to `a`, `a+1`, ... in ascending order (R54, R56). -/
def Memory.store : Memory → Nat → List Byte → Memory
  | m, _, [] => m
  | m, a, b :: bs => Memory.store (m.write a b) (a + 1) bs

/-- The `n` bytes at `a`, `a+1`, ... in ascending order (R54, R56). -/
def Memory.load (m : Memory) : Nat → Nat → List Byte
  | _, 0 => []
  | a, n + 1 => m.read a :: Memory.load m (a + 1) n

/-- Every entry lies at or above `low`, addresses rise strictly, every address exists and no entry equals what an
unlisted address reads as. -/
def Memory.wfFrom : Nat → Memory → Bool
  | _, [] => true
  | low, (a, b) :: m => decide (low ≤ a) && decide (a < Config.memSize) && (b != Memory.initial a) && Memory.wfFrom (a + 1) m

/-- The canonical form of memory: equal memories are equal lists. -/
def Memory.wf (m : Memory) : Bool := Memory.wfFrom 0 m

/-- The range check (R51, R52, R159): some byte of the `count` bytes from `base` lies outside memory. The sum is formed
without wrap. -/
def outOfRange (base count : Nat) : Bool := decide (count ≠ 0 ∧ base + count > Config.memSize)

/-- Instruction fetch, `MemRead(pc, 2)` (R52, R53, R102): the big-endian word at `PC`, at any `PC`, or the first
offending address: `PC` itself when it exceeds 0xFFF, else 0x1000. -/
def State.fetch (s : State) : Except Word Word :=
  if outOfRange s.pc.toNat 2 then .error (if s.pc.toNat > 0xFFF then s.pc else 0x1000#16)
  else .ok (wordOfBytes (s.mem.read s.pc.toNat) (s.mem.read (s.pc.toNat + 1)))

/-! ### Registers (spec/10_state.md) -/

/-- `V[x]` (R10, R21). -/
def State.reg (s : State) (x : Reg) : Byte := s.v[x]

/-- `V[x] <- b` (R10, R21); no register is hardwired. -/
def State.setReg (s : State) (x : Reg) (b : Byte) : State := { s with v := s.v.set x b }

/-- All sixteen registers at once, for `FX65`. -/
def State.setRegs (s : State) (v : Vector Byte 16) : State := { s with v := v }

/-- `pc <- target`; no target is checked (R120). -/
def State.setPc (s : State) (target : Word) : State := { s with pc := target }

/-- `I <- w` (R26). -/
def State.setIndex (s : State) (w : Word) : State := { s with i := w }

/-- `DT <- b` (R28). -/
def State.setDelay (s : State) (b : Byte) : State := { s with dt := b }

/-- `ST <- b` (R29). -/
def State.setSound (s : State) (b : Byte) : State := { s with st := b }

/-- Main memory after a store. -/
def State.setMem (s : State) (m : Memory) : State := { s with mem := m }

/-- The display surface after a draw or a clear. -/
def State.setSurface (s : State) (fb : Framebuffer) : State := { s with fb := fb }

/-- The key flags, as the input collaborator drives them (R108). -/
def State.setKeyFlags (s : State) (k : Word) : State := { s with keys := k }

/-- `present()`: one event, no other change (R39, R180). -/
def State.present (s : State) : State := { s with presentCount := s.presentCount + 1 }

/-- The random byte of this step (R36, R104): a free value. -/
def State.randomByte (s : State) : Byte := Config.randByte s.randIndex

/-- The random byte has been drawn: the next draw is another free value (log 1). -/
def State.drawRandom (s : State) : State := { s with randIndex := s.randIndex + 1 }

/-- The ordinary advance, `pc <- pc + 2` (R25, R106). -/
def State.advance (s : State) : State := s.setPc (s.pc + 2#16)

/-- A conditional skip: `pc + 4` when the condition holds, else `pc + 2` (R25, R120). -/
def State.skipIf (s : State) (c : Bool) : State := s.setPc (if c then s.pc + 4#16 else s.pc + 2#16)

/-! ### Call stack -/

/-- `STACK[SP] <- w; SP <- SP + 1`, or `none` when all 16 entries are in use (R10, R30). -/
def State.push (s : State) (w : Word) : Option State :=
  if h : s.sp.val < Config.stackDepth then
    some { s with stack := s.stack.set s.sp.val w h, sp := ⟨s.sp.val + 1, Nat.succ_lt_succ h⟩ }
  else none

/-- `SP <- SP − 1; return STACK[SP]`, or `none` when the stack is empty (R10, R30). The entry stays where it is, dead
(R31). -/
def State.pop (s : State) : Option (Word × State) :=
  if h : 0 < s.sp.val then
    have hlt : s.sp.val - 1 < 16 := by have := s.sp.isLt; omega
    some (s.stack[s.sp.val - 1], { s with sp := ⟨s.sp.val - 1, by omega⟩ })
  else none

/-! ### Faults (spec/60_exceptions.md) -/

/-- The number of a fault cause (R211; the spec's decision D17). Codes 6 and 7 are unused. -/
def FaultCause.code : FaultCause → BitVec 3
  | .none => 0#3
  | .unrecognizedOpcode => 1#3
  | .stackUnderflow => 2#3
  | .memOutOfRange => 3#3
  | .invalidKeyIndex => 4#3
  | .stackOverflow => 5#3

/-- TAKING AN EXCEPTION, for every fatal condition of the machine (R221): the core halts, the fault registers record the
cause, the address of the instruction, its word and the cause-specific value; nothing else changes and `PC` keeps the
address of the faulting instruction (R107, R222). There is no return from a fault; only reset leaves (R223). -/
def State.raise (s : State) (cause : FaultCause) (op info : Word) : State :=
  { s with halted := true, faultCause := cause, faultPc := s.pc, faultOp := op, faultInfo := info }

/-- The range fault of a load, a store or a sprite draw (R163, R164, R165, R183, R214): `fault_info` is 0x1000 (log 25). -/
def State.raiseRange (s : State) (op : Word) : State := s.raise .memOutOfRange op 0x1000#16

/-! ### Timers and outputs -/

/-- One decrement, clamped at zero (R230). -/
def countDown (b : Byte) : Byte := if b = 0#8 then 0#8 else b - 1#8

/-- The timer tick (R230); disabled while halted (R110). -/
def State.timerTick (s : State) : State :=
  if s.halted then s else (s.setDelay (countDown s.dt)).setSound (countDown s.st)

/-- The output `sound_on` = (`ST > 0`), at every instant, halted or not (R232, D27). -/
def State.soundOn (s : State) : Bool := s.st != 0#8

/-! ### Display surface (R180) -/

/-- `clear()`. -/
def Framebuffer.clear : Framebuffer := Framebuffer.allOff

/-- `get_pixel(x, y)`; a coordinate outside the surface reads as off, and the core never asks for one (R182). -/
def Framebuffer.getPixel (fb : Framebuffer) (x y : Nat) : Bool :=
  if h : y < 32 then fb[y].getLsbD x else false

/-- `set_pixel(x, y, on)`; a coordinate outside the surface is a no-op. -/
def Framebuffer.setPixel (fb : Framebuffer) (x y : Nat) (on : Bool) : Framebuffer :=
  if h : y < 32 then
    if x < 64 then
      fb.set y (if on then fb[y] ||| (1#64 <<< x) else fb[y] &&& ~~~(1#64 <<< x))
    else fb
  else fb

/-! ### Reset (spec/70_reset_and_hazards.md) -/

/-- The state when the host releases reset with the image `rom` (R41, R250, R251, R252): memory is rebuilt from zeros, font
and ROM, every register of the core has its reset value, the surface shows `fbInit`. What is not the core's is kept:
the key flags (R252), the place in the random source and the coming moves (log 28). -/
def State.resetWith (s : State) (rom : List Byte) (fbInit : Framebuffer) : State :=
  { State.reset with
    mem := Memory.store [] Config.romBase rom
    fb := fbInit
    keys := s.keys
    randIndex := s.randIndex
    schedule := s.schedule
    round := s.round }

/-! ### Placing an instruction where the next step fetches it -/

/-- The state with the word `op` stored at `PC`, high byte first, the core running and the CPU to move next. -/
def State.placeWord (s : State) (op : Word) : State :=
  { s with
    mem := s.mem.store s.pc.toNat [wordHigh op, wordLow op]
    halted := false
    schedule := .cpuStep :: s.schedule }

end Sys2Proof.Machine
end

