-- ==== Sys2Proof/Machine/Operands.lean ====
section
/-! DEFINITION. The operand forms: zero-extended immediates (R82), the one data addressing mode `I + k` (R158), font glyph
addresses (R162), decimal digits (R163), sprite origin and rows (R182), key numbers (R191, R193). -/

namespace Sys2Proof.Machine

/-- `zext_16(NNN)`: a 12-bit address in a 16-bit register (R82). -/
def zextAddr (nnn : Addr) : Word := nnn.setWidth 16

/-- `zext_16(b)`: a byte in a 16-bit register (R82). -/
def zextByte (b : Byte) : Word := b.setWidth 16

/-- The effective address `ea = I + k`, a sum over the integers without wrap (R158). -/
def State.ea (s : State) (k : Nat) : Nat := s.i.toNat + k

/-- `FONT_BASE + 5 × (b & 0x0F)`: the address of the glyph of the low nibble (R60, R162). -/
def glyphAddress (b : Byte) : Word := BitVec.ofNat 16 (fontBase + glyphBytes * (b &&& 0x0F#8).toNat)

/-- The three decimal digits of a byte, hundreds first, each a value 0..9 (R139, R163). -/
def decimalDigits (b : Byte) : List Byte :=
  [BitVec.ofNat 8 (b.toNat / 100), BitVec.ofNat 8 (b.toNat / 10 % 10), BitVec.ofNat 8 (b.toNat % 10)]

/-- `V[0]` to `V[x]`, in ascending order (R164). -/
def State.regsUpTo (s : State) (x : Reg) : List Byte := s.v.toList.take (x.val + 1)

/-- `V[k] <- Mem[base + k]` for `k` below `n`, in ascending order (R165). -/
def loadRegs (m : Memory) (base : Nat) : Nat → Vector Byte 16 → Vector Byte 16
  | 0, v => v
  | n + 1, v => (loadRegs m base n v).setIfInBounds n (m.read (base + n))

/-- `x0 = V[X] mod 64`: the column of a sprite's origin (R182). -/
def spriteColumn (b : Byte) : Nat := b.toNat % 64

/-- `y0 = V[Y] mod 32`: the row of a sprite's origin (R182). -/
def spriteRow (b : Byte) : Nat := b.toNat % 32

/-- The bit of a sprite row that column `c` shows: bit `7 − c`, most significant first (R182). -/
def spriteBit (row : Byte) (c : Nat) : Bool := row.getLsbD (7 - c)

/-- The least pressed key of a snapshot (R193; the spec's decision D13). -/
def lowestKey (k : Word) : Option Nat := (List.range 16).find? fun j => k.getLsbD j

end Sys2Proof.Machine
end

