-- ==== Sys2Proof/Machine/Flags.lean ====
section
/-! DEFINITION. The one flag, `VF`, and what each flag-writing instruction puts there (R22, R139); the order of result and
flag (R23). The collision flag of `DXYN` is computed with the draw, in Machine/Display.lean. -/

namespace Sys2Proof.Machine

/-- A flag as `VF` holds it: 1 or 0 (R22). -/
def flagByte (f : Bool) : Byte := if f then 1#8 else 0#8

/-- Carry out of an 8-bit addition: `a + b > 255` (R139, R146). -/
def carryOut (a b : Byte) : Bool := decide (a.toNat + b.toNat > 255)

/-- No borrow in `a − b`: `a ≥ b` (R139, R147, R149). -/
def noBorrow (a b : Byte) : Bool := decide (a.toNat ≥ b.toNat)

/-- The bit a right shift drops: bit 0 of the value before the shift (R148). -/
def shiftedOutRight (a : Byte) : Bool := a.getLsbD 0

/-- The bit a left shift drops: bit 7 of the value before the shift (R150). -/
def shiftedOutLeft (a : Byte) : Bool := a.getLsbD 7

/-- The sum left the 12-bit address space: `I + a > 0xFFF` (R161). -/
def indexOverflow (i : Word) (a : Byte) : Bool := decide (i.toNat + a.toNat > 0xFFF)

/-- `VF <- flag` (R22). -/
def State.setFlag (s : State) (f : Bool) : State := s.setReg Reg.vf (flagByte f)

/-- The result to `V[X]`, then the flag to `VF`: with `X = 15` the flag wins (R23; the spec's decision D6). -/
def State.setResultThenFlag (s : State) (x : Reg) (result : Byte) (f : Bool) : State :=
  (s.setReg x result).setFlag f

end Sys2Proof.Machine
end

