-- ==== Sys2Proof/Machine/Display.lean ====
section
/-! DEFINITION. The display: `00E0 DXYN`, with the collision flag (spec/44_display.md). The drawing operations carry the surface
and the collision flag so far, as the loop of R183 does. -/

namespace Sys2Proof.Machine

/-- One sprite pixel (R182, R183): outside the surface it is dropped; inside, the pixel becomes the XOR with the bit and a
lit pixel turned off is a collision. -/
def drawPixel (px py : Nat) (bit : Bool) (acc : Framebuffer × Bool) : Framebuffer × Bool :=
  if px ≤ 63 ∧ py ≤ 31 then
    (acc.1.setPixel px py (acc.1.getPixel px py ^^ bit), acc.2 || (bit && acc.1.getPixel px py))
  else acc

/-- The eight columns of one sprite row, left to right (R183). -/
def drawRow (x0 py : Nat) (row : Byte) (acc : Framebuffer × Bool) : Framebuffer × Bool :=
  (List.range 8).foldl (fun acc c => drawPixel (x0 + c) py (spriteBit row c) acc) acc

/-- The sprite's rows, top to bottom, from surface row `py` (R183). -/
def drawRows (x0 : Nat) : Nat → List Byte → Framebuffer × Bool → Framebuffer × Bool
  | _, [], acc => acc
  | py, row :: rows, acc => drawRows x0 (py + 1) rows (drawRow x0 py row acc)

/-- CLS (R181): no flag and no `present`. -/
def execCls (s : State) : Result := .next (s.setSurface Framebuffer.clear).advance

/-- DRW VX, VY, N (R183): the origin is read before the flag is written, all `N` rows are range-checked and read, the
flag is written on every execution, one `present` (R185). -/
def execDrw (x y : Reg) (n : Nat) (s : State) : Result :=
  if outOfRange (s.ea 0) n then .next (s.raiseRange (encode (.drw x y n)))
  else
    let drawn := drawRows (spriteColumn (s.reg x)) (spriteRow (s.reg y)) (s.mem.load (s.ea 0) n) (s.fb, false)
    .next ((s.setSurface drawn.1).setFlag drawn.2).present.advance

end Sys2Proof.Machine
end

