-- ==== Sys2Proof/Machine/IndexMemory.lean ====
section
/-! DEFINITION. Index register and memory: `ANNN FX1E FX29 FX33 FX55 FX65` (spec/43_index_memory.md). A load or store checks its
whole range before its first read or write (R159) and leaves `I` as it is (R158). -/

namespace Sys2Proof.Machine

/-- LD I, NNN (R160). -/
def execLdI (nnn : Addr) (s : State) : Result := .next (s.setIndex (zextAddr nnn)).advance

/-- ADD I, VX (R161): modulo 4096, `VF` is the overflow, written last. -/
def execAddI (x : Reg) (s : State) : Result :=
  .next ((s.setIndex (BitVec.ofNat 16 ((s.i.toNat + (s.reg x).toNat) % Config.memSize))).setFlag
    (indexOverflow s.i (s.reg x))).advance

/-- LD F, VX (R162): an address only; no memory is read. -/
def execLdF (x : Reg) (s : State) : Result := .next (s.setIndex (glyphAddress (s.reg x))).advance

/-- LD B, VX (R163). -/
def execLdB (x : Reg) (s : State) : Result :=
  if outOfRange (s.ea 0) 3 then .next (s.raiseRange (encode (.ldB x)))
  else .next (s.setMem (s.mem.store (s.ea 0) (decimalDigits (s.reg x)))).advance

/-- LD [I], VX (R164): `X + 1` bytes. -/
def execLdMemVx (x : Reg) (s : State) : Result :=
  if outOfRange (s.ea 0) (x.val + 1) then .next (s.raiseRange (encode (.ldMemVx x)))
  else .next (s.setMem (s.mem.store (s.ea 0) (s.regsUpTo x))).advance

/-- LD VX, [I] (R165): `X + 1` bytes. -/
def execLdVxMem (x : Reg) (s : State) : Result :=
  if outOfRange (s.ea 0) (x.val + 1) then .next (s.raiseRange (encode (.ldVxMem x)))
  else .next (s.setRegs (loadRegs s.mem (s.ea 0) (x.val + 1) s.v)).advance

end Sys2Proof.Machine
end

