-- ==== Sys2Proof/Machine/KeypadTimers.lean ====
section
/-! DEFINITION. Keypad and timers: `EX9E EXA1 FX07 FX0A FX15 FX18` (spec/45_keypad_timers.md). The key snapshot `K` of R104 is
the state's `keys`: a step is indivisible, so no key changes within it (R57, R100). -/

namespace Sys2Proof.Machine

/-- A key test (R191, R192): the whole byte is the key number, and a number above 15 is a fault; otherwise skip when the
key's flag equals `down`. -/
def keySkip (b : Byte) (down : Bool) (op : Word) (s : State) : State :=
  if b.toNat > 0x0F then s.raise .invalidKeyIndex op (zextByte b)
  else s.skipIf (s.keys.getLsbD b.toNat == down)

/-- SKP VX (R191). -/
def execSkp (x : Reg) (s : State) : Result := .next (keySkip (s.reg x) true (encode (.skp x)) s)

/-- SKNP VX (R192). -/
def execSknp (x : Reg) (s : State) : Result := .next (keySkip (s.reg x) false (encode (.sknp x)) s)

/-- LD VX, DT (R194). -/
def execLdVxDt (x : Reg) (s : State) : Result := .next (s.setReg x s.dt).advance

/-- LD VX, K (R193): with no key down the step changes nothing, `PC` included; else the lowest pressed key. -/
def execLdVxK (x : Reg) (s : State) : Result :=
  match lowestKey s.keys with
  | none => .next s
  | some k => .next (s.setReg x (BitVec.ofNat 8 k)).advance

/-- LD DT, VX (R195). -/
def execLdDtVx (x : Reg) (s : State) : Result := .next (s.setDelay (s.reg x)).advance

/-- LD ST, VX (R196). -/
def execLdStVx (x : Reg) (s : State) : Result := .next (s.setSound (s.reg x)).advance

end Sys2Proof.Machine
end

