-- ==== Sys2Proof/Machine/RegisterAlu.lean ====
section
/-! DEFINITION. Register load, arithmetic and logic: `6XNN 7XNN 8XY0` to `8XY7`, `8XYE CXNN` (spec/42_register_alu.md). All
operands are read before anything is written; a flag is written last (R138). -/

namespace Sys2Proof.Machine

/-- LD VX, NN (R140). -/
def execLdImm (x : Reg) (nn : Byte) (s : State) : Result := .next (s.setReg x nn).advance

/-- ADD VX, NN (R141): wraps modulo 256 and writes no flag. -/
def execAddImm (x : Reg) (nn : Byte) (s : State) : Result := .next (s.setReg x (s.reg x + nn)).advance

/-- LD VX, VY (R142). -/
def execLdReg (x y : Reg) (s : State) : Result := .next (s.setReg x (s.reg y)).advance

/-- OR VX, VY (R143): no flag. -/
def execOr (x y : Reg) (s : State) : Result := .next (s.setReg x (s.reg x ||| s.reg y)).advance

/-- AND VX, VY (R144): no flag. -/
def execAnd (x y : Reg) (s : State) : Result := .next (s.setReg x (s.reg x &&& s.reg y)).advance

/-- XOR VX, VY (R145): no flag. -/
def execXor (x y : Reg) (s : State) : Result := .next (s.setReg x (s.reg x ^^^ s.reg y)).advance

/-- ADD VX, VY (R146): `VF` is the carry. -/
def execAdd (x y : Reg) (s : State) : Result :=
  .next (s.setResultThenFlag x (s.reg x + s.reg y) (carryOut (s.reg x) (s.reg y))).advance

/-- SUB VX, VY (R147): `VF` is no borrow. -/
def execSub (x y : Reg) (s : State) : Result :=
  .next (s.setResultThenFlag x (s.reg x - s.reg y) (noBorrow (s.reg x) (s.reg y))).advance

/-- SHR VX (R148): the source is `V[X]`, `VF` the bit shifted out; the `Y` field is not used. -/
def execShr (x _y : Reg) (s : State) : Result :=
  .next (s.setResultThenFlag x (s.reg x >>> 1) (shiftedOutRight (s.reg x))).advance

/-- SUBN VX, VY (R149): `V[Y] − V[X]` to `V[X]`, `VF` is no borrow. -/
def execSubn (x y : Reg) (s : State) : Result :=
  .next (s.setResultThenFlag x (s.reg y - s.reg x) (noBorrow (s.reg y) (s.reg x))).advance

/-- SHL VX (R150): the source is `V[X]`, `VF` the bit shifted out; the `Y` field is not used. -/
def execShl (x _y : Reg) (s : State) : Result :=
  .next (s.setResultThenFlag x (s.reg x <<< 1) (shiftedOutLeft (s.reg x))).advance

/-- RND VX, NN (R151): the random byte is a free value, and the next draw is another one (log 1). -/
def execRnd (x : Reg) (nn : Byte) (s : State) : Result :=
  .next (s.setReg x (s.randomByte &&& nn)).drawRandom.advance

end Sys2Proof.Machine
end

