-- ==== Sys2Proof/Machine/Cycle.lean ====
section
/-! DEFINITION. The steps of the four agents (R100): the CPU's step cycle (R101), the timer tick (R230), the input
collaborator (R108), the host's reset (R250); and whose move it is (R109): the moves that `schedule` lists, then rounds of free moves in which both the CPU and the timer move. -/

namespace Sys2Proof.Machine

/-- One CPU step (R101): fetch, decode, dispatch; the faults of a fetch out of range and of an unrecognised word are taken
here, in the order of R220. While halted it changes nothing (R110). -/
def cpuStep (s : State) : Result :=
  if s.halted then .next s
  else
    match s.fetch with
    | .error a => .next (s.raise .memOutOfRange 0#16 a)
    | .ok op =>
      match decodeWord op with
      | .error _ => .next (s.raise .unrecognizedOpcode op op)
      | .ok i => exec i s

/-- One move of the agent an event names. A ROM image longer than 3584 bytes never starts the core (R254). -/
def agentStep (e : Event) (s : State) : Result :=
  match e with
  | .cpuStep => cpuStep s
  | .timerTick => .next s.timerTick
  | .setKeys k => .next (s.setKeyFlags k)
  | .reset rom fbInit =>
    if rom.length ≤ Config.romMaxLen then .next (s.resetWith rom fbInit) else .refused .romTooLong

/-- A move the host may make: a reset is released only with an image that fits (R254). -/
def Event.launchable : Event → Bool
  | .reset rom _ => decide (rom.length ≤ Config.romMaxLen)
  | _ => true

/-- The `k`-th round of free moves: any moves, a CPU step, any moves, a timer tick. A sequence of moves in which the CPU and the
timer both move again and again is a sequence of such rounds, and every sequence of such rounds is one: the fairness of R109
(log 42). -/
def roundMoves (k : Nat) : List Event :=
  (Config.movesBeforeStep k).filter Event.launchable ++
    .cpuStep :: ((Config.movesBeforeTick k).filter Event.launchable ++ [.timerTick])

/-- The coming moves of the agents (R109): those listed, or a new round when none is. Never empty (`coming_ne_nil`). -/
def State.coming (s : State) : List Event :=
  match s.schedule with
  | [] => roundMoves s.round
  | e :: es => e :: es

/-- The next move of the agents. -/
def State.nextEvent (s : State) : Event := s.coming.headD .cpuStep

/-- The state with the next move taken off the coming moves. -/
def State.afterTurn (s : State) : State :=
  { s with schedule := s.coming.tail, round := if s.schedule.isEmpty then s.round + 1 else s.round }

/-- The next move of the machine: the agent whose move it is moves (R100, R109; logs 2, 42). -/
def nextMove (s : State) : Result := agentStep s.nextEvent s.afterTurn

end Sys2Proof.Machine
end

