-- ==== Sys2Proof/Safety.lean ====
section
/-! DEFINITION. The terms claims are stated in: sequences of moves, what an instruction or a draw leaves, the
invariant of the machine, what a sprite covers, and what a safe run is. -/

namespace Sys2Proof.Machine

/-- The words whose bits under `mask` are `value` decode, and decode to what `f` reads from them (R84, R85). -/
def Selects (mask value : Word) (f : Word → Instr) : Prop :=
  ∀ w : Word, w &&& mask = value → decodeWord w = .ok (f w)

/-- The pixel in column `x` and row `y` of the surface, `fb[x][y]` (R9, R33). -/
def State.pixel (s : State) (x y : Nat) : Bool := s.fb.getPixel x y

/-- The byte at an address (R9, R50). -/
def State.byteAt (s : State) (a : Nat) : Byte := s.mem.read a

/-- The sprite of `DXYN` in state `s` has a set bit on the surface pixel (`px`, `py`): with the origin of R182, the pixel is
column `px − x0` below 8 and row `py − y0` below `n` of the sprite, on the surface, and that bit is 1. -/
def State.spriteCovers (s : State) (x y : Reg) (n px py : Nat) : Bool :=
  let x0 := (s.v[x]).toNat % 64
  let y0 := (s.v[y]).toNat % 32
  decide (px < 64) && decide (py < 32) && decide (x0 ≤ px) && decide (px < x0 + 8) && decide (y0 ≤ py) &&
    decide (py < y0 + n) && (s.byteAt (s.i.toNat + (py - y0))).getLsbD (7 - (px - x0))

/-- The invariant of the machine: memory is in canonical form; `I ≤ 0xFFF` (R27); `PC ≤ 0x10FE` (R25); every live stack entry is
at most 0x1000 (R31, R123); the fault record is empty while the core runs and, once it has halted, holds a cause and the address
`PC` still has (R37, R38, R221). -/
abbrev State.Inv (s : State) : Prop :=
  s.mem.wf = true ∧ s.i.toNat ≤ 0xFFF ∧ s.pc.toNat ≤ 0x10FE ∧ (∀ j : Fin 16, j.val < s.sp.val → (s.stack[j]).toNat ≤ 0x1000) ∧
  (s.halted = false → s.faultCause = .none ∧ s.faultPc = 0#16 ∧ s.faultOp = 0#16 ∧ s.faultInfo = 0#16) ∧
  (s.halted = true → s.faultCause ≠ .none ∧ s.faultPc = s.pc)

/-- The state after fault entry as R221 describes it, written out: the core is halted, the record holds the cause, the
address of the instruction (the `PC` it keeps), its word and the cause-specific value; nothing else differs. -/
def State.faultEntry (s : State) (cause : FaultCause) (op info : Word) : State :=
  { s with halted := true, faultCause := cause, faultPc := s.pc, faultOp := op, faultInfo := info }

/-- `t` is `s` with the value `r` in `V[x]` and `PC` advanced by 2: every other register and every other piece of state is
as in `s`. -/
def RegResult (s t : State) (x : Reg) (r : Nat) : Prop :=
  t = { s with v := t.v, pc := s.pc + 2#16 } ∧ (t.v[x]).toNat = r ∧ ∀ j : Reg, j ≠ x → t.v[j] = s.v[j]

/-- `t` is `s` with the value `r` in `V[x]`, then the flag `f` in `VF` (so that with `x = 15` the flag is what stays), and
`PC` advanced by 2: every other register and every other piece of state is as in `s`. -/
def RegFlagResult (s t : State) (x : Reg) (r : Nat) (f : Bool) : Prop :=
  t = { s with v := t.v, pc := s.pc + 2#16 } ∧ (t.v[(15 : Reg)]).toNat = f.toNat ∧ (x ≠ 15 → (t.v[x]).toNat = r) ∧
    ∀ j : Reg, j ≠ x → j ≠ 15 → t.v[j] = s.v[j]

/-- The byte at `a` after `FX55` in state `s` has stored `V[0]` to `V[x]` from `I` up (R164). -/
def State.byteAfterRegs (s : State) (x : Reg) (a : Nat) : Byte :=
  if s.i.toNat ≤ a ∧ a ≤ s.i.toNat + x.val then s.v.toList.getD (a - s.i.toNat) 0#8 else s.byteAt a

/-- The byte at `a`, as a number, after `FX33` in state `s` has stored the digits of `V[x]` from `I` up (R163). -/
def State.byteAfterDigits (s : State) (x : Reg) (a : Nat) : Nat :=
  if a = s.i.toNat then (s.v[x]).toNat / 100
  else if a = s.i.toNat + 1 then (s.v[x]).toNat / 10 % 10
  else if a = s.i.toNat + 2 then (s.v[x]).toNat % 10
  else (s.byteAt a).toNat

/-- From `s` the machine reaches `t` by `n` timer ticks and any number of instructions other than `FX15` and of key changes, in
any order (R109, R194). -/
inductive DelayRun (s : State) : Nat → State → Prop where
  | start : DelayRun s 0 s
  | tick {n : Nat} {t : State} : DelayRun s n t → t.halted = false → DelayRun s (n + 1) t.timerTick
  | instr {n : Nat} {t u : State} (i : Instr) : DelayRun s n t → t.halted = false → (∀ x, i ≠ .ldDtVx x) → exec i t = .next u →
      DelayRun s n u
  | keys {n : Nat} {t : State} (k : Word) : DelayRun s n t → DelayRun s n (t.setKeyFlags k)

/-- The agents make the listed moves, one after the other, until one is refused (R100, R109). -/
def takeMoves : List Event → State → Result
  | [], s => .next s
  | e :: es, s =>
    match agentStep e s with
    | .next t => takeMoves es t
    | .fault f => .fault f
    | .refused r => .refused r

/-- A run of `n` moves from `s` is safe: after each of them the core is running (no fatal condition has occurred). -/
def SafeRun (n : Nat) (s : State) : Prop :=
  ∀ k ≤ n, ∃ t, core.run k s = .next t ∧ t.halted = false

end Sys2Proof.Machine
end

