-- ==== Sys2Proof/Certificates/Slice0/Obligations.lean ====
section
/-! DEFINITION. The statements for the provers. Each docstring names the rules of spec/ the statement formalises; where it rests
on one of the spec's own decisions (D<n> of spec/92) or on an entry of the log, it says so. In every statement about an
instruction, `s.pc` is the address the instruction was fetched from (R106). -/

open Sys2Proof Sys2Proof.Machine

/-! ### Encoding (spec/30_encoding.md) -/

/-- Words of the spec, one or more per family, and the instructions they stand for (R85, V-E1, V-E2, V-E3, V-E5). -/
def Obligations.SampleWordsDecode : Prop :=
  decodeWord 0x00E0#16 = .ok .cls ∧ decodeWord 0x00EE#16 = .ok .ret ∧ decodeWord 0x220C#16 = .ok (.call 0x20C#12) ∧
  decodeWord 0x3A42#16 = .ok (.seImm 10 0x42#8) ∧ decodeWord 0x8AB4#16 = .ok (.add 10 11) ∧
  decodeWord 0x8126#16 = .ok (.shr 1 2) ∧ decodeWord 0x8017#16 = .ok (.subn 0 1) ∧
  decodeWord 0xF21E#16 = .ok (.addI 2) ∧ decodeWord 0xF033#16 = .ok (.ldB 0) ∧ decodeWord 0xD12F#16 = .ok (.drw 1 2 15) ∧
  decodeWord 0xE29E#16 = .ok (.skp 2) ∧ decodeWord 0xF10A#16 = .ok (.ldVxK 1) ∧
  decodeWord 0x00EF#16 = .error (.unrecognizedOpcode 0x00EF#16) ∧ decode [0x12#8, 0x34#8] = .ok (.jp 0x234#12, [])

/-- The operands of a word are the fields R82 gives, as numbers, and an immediate that meets a 16-bit register is
zero-extended (R81, R82). -/
def Obligations.OperandsAreTheFieldsOfTheWord : Prop :=
  (∀ w : Word,
    (fieldN0 w).toNat = w.toNat / 4096 ∧ (fieldN1 w).toNat = w.toNat / 256 % 16 ∧
    (fieldN2 w).toNat = w.toNat / 16 % 16 ∧ (fieldN3 w).toNat = w.toNat % 16 ∧
    (fieldX w).val = w.toNat / 256 % 16 ∧ (fieldY w).val = w.toNat / 16 % 16 ∧ fieldN w = w.toNat % 16 ∧
    (fieldNN w).toNat = w.toNat % 256 ∧ (fieldNNN w).toNat = w.toNat % 4096) ∧
  (∀ nnn : Addr, (zextAddr nnn).toNat = nnn.toNat) ∧ (∀ b : Byte, (zextByte b).toNat = b.toNat)

/-- Decoding an encoded well-formed instruction gives it back, with the bytes after it (R53, R80, R82, R85). -/
def Obligations.DecodeInvertsEncode : Prop :=
  ∀ (i : Instr) (rest : List Byte), WellFormed i = true → decode (encodeBytes i ++ rest) = .ok (i, rest)

/-- A word that decodes is the encoding of the instruction it decodes to, which is well-formed: no bit is dropped. -/
def Obligations.EncodeInvertsDecode : Prop :=
  ∀ (w : Word) (i : Instr), decodeWord w = .ok i → WellFormed i = true ∧ encode i = w

/-- The decision tree of R86 and the mask-and-match table of R85 are the same map: the rows are pairwise disjoint, a word
decodes exactly when it selects a row, and then to that row's instruction (R84, R86). -/
def Obligations.DecoderIsTheOpcodeTable : Prop :=
  (∀ (w : Word), ∀ r ∈ opcodeTable, ∀ r' ∈ opcodeTable, w &&& r.mask = r.value → w &&& r'.mask = r'.value → r = r') ∧
  (∀ (w : Word) (i : Instr), decodeWord w = .ok i →
    ∃ r ∈ opcodeTable, w &&& r.mask = r.value ∧ r.mnemonic = mnemonicOf i) ∧
  (∀ (w : Word) (e : DecodeReject), decodeWord w = .error e →
    e = .unrecognizedOpcode w ∧ ∀ r ∈ opcodeTable, w &&& r.mask ≠ r.value)

/-- The words that decode to no instruction are exactly the six groups of R87, and there are as many in each group as
R87 counts. -/
def Obligations.UnrecognisedWordsAreTheListedGroups : Prop :=
  (∀ w : Word, (∃ e, decodeWord w = .error e) ↔
    (w.toNat / 4096 = 0x0 ∧ w ≠ 0x00E0#16 ∧ w ≠ 0x00EE#16) ∨
    (w.toNat / 4096 = 0x5 ∧ w.toNat % 16 ≠ 0) ∨
    (w.toNat / 4096 = 0x8 ∧ w.toNat % 16 ∈ [0x8, 0x9, 0xA, 0xB, 0xC, 0xD, 0xF]) ∨
    (w.toNat / 4096 = 0x9 ∧ w.toNat % 16 ≠ 0) ∨
    (w.toNat / 4096 = 0xE ∧ w.toNat % 256 ∉ [0x9E, 0xA1]) ∨
    (w.toNat / 4096 = 0xF ∧ w.toNat % 256 ∉ [0x07, 0x0A, 0x15, 0x18, 0x1E, 0x29, 0x33, 0x55, 0x65])) ∧
  (∀ n0 : Fin 16, ((List.range 4096).filter fun k => !(decodeWord (BitVec.ofNat 16 (4096 * n0.val + k))).isOk).length =
    [4094, 0, 0, 0, 0, 3840, 0, 0, 1792, 3840, 0, 0, 0, 0, 4064, 3952].getD n0.val 0)

/-! ### The step cycle (spec/40_step_cycle.md, spec/20_memory.md) -/

/-- When it is the CPU's turn, the core runs and the two bytes at `PC` make a word that decodes to `i`, the step executes
exactly `i`, on the state with that turn taken off the coming moves (R101, R105, R106); the coming moves are the model's (logs 2,
42). -/
def Obligations.StepExecutesTheDecodedInstruction : Prop :=
  ∀ (s : State) (i : Instr), s.nextEvent = .cpuStep → s.halted = false → s.pc.toNat ≤ 0xFFE →
    decode [s.byteAt s.pc.toNat, s.byteAt (s.pc.toNat + 1)] = .ok (i, []) →
    step s = exec i s.afterTurn

/-- Fetch is big-endian: the byte at `PC` is `op[15:8]`, the next one `op[7:0]`; an image that begins 00 E0 60 05 begins
with the words 00E0 and 6005 (R53). -/
def Obligations.FetchIsBigEndian : Prop :=
  (∀ s : State, s.pc.toNat ≤ 0xFFE →
    ∃ op, s.fetch = .ok op ∧ op.toNat = 256 * (s.byteAt s.pc.toNat).toNat + (s.byteAt (s.pc.toNat + 1)).toNat) ∧
  (∀ (s : State) (rest : List Byte) (f : Framebuffer), rest.length ≤ 3580 →
    (s.resetWith ([0x00#8, 0xE0#8, 0x60#8, 0x05#8] ++ rest) f).fetch = .ok 0x00E0#16 ∧
    ((s.resetWith ([0x00#8, 0xE0#8, 0x60#8, 0x05#8] ++ rest) f).setPc 0x202#16).fetch = .ok 0x6005#16)

/-- A fetch at `PC ≥ 0xFFF` is a fault: `fault_op` 0, `fault_info` 0x1000 for `PC` = 0xFFF and `PC` itself above
(R102, R214 (a), R221); the cause has the number 3 (R211, the spec's decision D17). -/
def Obligations.FetchOutOfRangeFaults : Prop :=
  ∀ s : State, s.nextEvent = .cpuStep → s.halted = false → 0xFFF ≤ s.pc.toNat →
    step s = .next (s.afterTurn.faultEntry .memOutOfRange 0#16 (if s.pc.toNat = 0xFFF then 0x1000#16 else s.pc)) ∧
    FaultCause.memOutOfRange.code = 3#3

/-- A fetched word that selects no row of the opcode map is a fatal error that records the word twice (R212, R221); the cause
has the number 1 (R211, the spec's decision D17). -/
def Obligations.UnrecognisedWordFaults : Prop :=
  ∀ (s : State) (op : Word), s.nextEvent = .cpuStep → s.halted = false → s.fetch = .ok op →
    (∀ r ∈ opcodeTable, op &&& r.mask ≠ r.value) →
    step s = .next (s.afterTurn.faultEntry .unrecognizedOpcode op op) ∧ FaultCause.unrecognizedOpcode.code = 1#3

/-- While halted, a CPU step and a timer tick change nothing, the input collaborator can still change `keys` and nothing
else, and only reset makes the core run again (R110, R37, R223). -/
def Obligations.HaltedCoreIsFrozen : Prop :=
  ∀ s : State, s.halted = true →
    (s.nextEvent = .cpuStep ∨ s.nextEvent = .timerTick → step s = .next s.afterTurn) ∧
    (∀ k, s.nextEvent = .setKeys k → step s = .next { s.afterTurn with keys := k }) ∧
    (∀ t, step s = .next t → t.halted = false → ∃ rom f, s.nextEvent = .reset rom f) ∧
    (∀ rom f, s.nextEvent = .reset rom f → rom.length ≤ 3584 → ∃ t, step s = .next t ∧ t.halted = false)

/-- A faulting step is precise: of a running core's CPU step that halts it, nothing but the fault record is written, the
record names a cause and the address of the faulting instruction (R107, R221, R222; the spec's decisions D18, D19). -/
def Obligations.FaultingStepWritesOnlyTheRecord : Prop :=
  ∀ s t : State, s.nextEvent = .cpuStep → s.halted = false → step s = .next t → t.halted = true →
    t = s.afterTurn.faultEntry t.faultCause t.faultOp t.faultInfo ∧ t.faultCause ≠ .none ∧
    (∀ op, s.fetch = .ok op → t.faultOp = op) ∧ (∀ a, s.fetch = .error a → t.faultOp = 0#16)

/-- Which instructions raise which fault, when, with which number and which value: the table of R211 (the numbers are the spec's
decision D17) for everything after recognition. -/
def Obligations.InstructionFaultsAreTheListedOnes : Prop :=
  ∀ (i : Instr) (s t : State), s.halted = false → exec i s = .next t → t.halted = true →
    (i = .ret ∧ s.sp = 0 ∧ t.faultCause = .stackUnderflow ∧ t.faultCause.code = 2#3 ∧ t.faultInfo = 0#16) ∨
    ((∃ nnn, i = .call nnn) ∧ s.sp = 16 ∧ t.faultCause = .stackOverflow ∧ t.faultCause.code = 5#3 ∧ t.faultInfo = 0#16) ∨
    ((∃ x, (i = .skp x ∨ i = .sknp x) ∧ 15 < (s.v[x]).toNat ∧ t.faultInfo.toNat = (s.v[x]).toNat) ∧
      t.faultCause = .invalidKeyIndex ∧ t.faultCause.code = 4#3) ∨
    (((∃ x y n, i = .drw x y n ∧ 1 ≤ n ∧ 0xFFF < s.i.toNat + n - 1) ∨ (∃ x, i = .ldB x ∧ 0xFFF < s.i.toNat + 2) ∨
        ∃ x, (i = .ldMemVx x ∨ i = .ldVxMem x) ∧ 0xFFF < s.i.toNat + x.val) ∧
      t.faultCause = .memOutOfRange ∧ t.faultCause.code = 3#3 ∧ t.faultInfo = 0x1000#16)

/-- Every move has a next state, but a reset whose ROM image is longer than 3584 bytes, which is refused (R101, R110, R254;
the refusal is the model's rendering of decision D24, log 27). -/
def Obligations.EveryMoveAnswersOrIsAnOverlongReset : Prop :=
  ∀ s : State, (∃ t, step s = .next t) ∨
    ∃ rom f es, s.schedule = .reset rom f :: es ∧ 3584 < rom.length ∧ step s = .refused .romTooLong

/-! ### Control flow (spec/41_control_flow.md) -/

/-- RET (R121). -/
def Obligations.ReturnJumpsToThePoppedEntry : Prop :=
  Selects 0xFFFF#16 0x00EE#16 (fun _ => .ret) ∧
  ∀ s : State,
    (∀ k : Fin 16, s.sp = k.succ → exec .ret s = .next { s with sp := k.castSucc, pc := s.stack[k] }) ∧
    (s.sp = 0 → exec .ret s = .next (s.faultEntry .stackUnderflow 0x00EE#16 0#16))

/-- JP NNN (R122): only `PC` changes; a jump to its own address changes nothing; a jump to 0xFFF makes the next fetch
raise `MemOutOfRange(0x1000)`. -/
def Obligations.JumpGoesToItsAddress : Prop :=
  Selects 0xF000#16 0x1000#16 (fun w => .jp (fieldNNN w)) ∧
  ∀ (s : State) (nnn : Addr), ∃ t, exec (.jp nnn) s = .next t ∧ t = { s with pc := t.pc } ∧ t.pc.toNat = nnn.toNat ∧
    (s.pc.toNat = nnn.toNat → t = s) ∧ (nnn = 0xFFF#12 → t.fetch = .error 0x1000#16)

/-- CALL NNN (R123; the fault on a full stack is the spec's decision D5). -/
def Obligations.CallPushesTheFollowingAddress : Prop :=
  Selects 0xF000#16 0x2000#16 (fun w => .call (fieldNNN w)) ∧
  ∀ (s : State) (nnn : Addr),
    (∀ k : Fin 16, s.sp = k.castSucc → ∃ t, exec (.call nnn) s = .next t ∧
      t = { s with stack := t.stack, sp := k.succ, pc := t.pc } ∧ t.pc.toNat = nnn.toNat ∧
      t.stack[k] = s.pc + 2#16 ∧ ∀ j : Fin 16, j ≠ k → t.stack[j] = s.stack[j]) ∧
    (s.sp = 16 → exec (.call nnn) s = .next (s.faultEntry .stackOverflow (encode (.call nnn)) 0#16))

/-- A return undoes a call: whatever ran in between, if the stack is as the call left it, `RET` goes to the instruction after
the call and the stack pointer is what it was (R121, R123, R129). -/
def Obligations.ReturnUndoesCall : Prop :=
  ∀ (s t : State) (nnn : Addr), s.halted = false → exec (.call nnn) s = .next t → t.halted = false →
    ∀ u : State, u.stack = t.stack → u.sp = t.sp →
      ∃ w, exec .ret u = .next w ∧ w = { u with sp := s.sp, pc := s.pc + 2#16 }

/-- SE VX, NN and SNE VX, NN (R124, R125); a taken skip at 0xFFC or 0xFFE succeeds and the next fetch faults. -/
def Obligations.SkipsOnImmediate : Prop :=
  Selects 0xF000#16 0x3000#16 (fun w => .seImm (fieldX w) (fieldNN w)) ∧
  Selects 0xF000#16 0x4000#16 (fun w => .sneImm (fieldX w) (fieldNN w)) ∧
  ∀ (s : State) (x : Reg) (nn : Byte),
    exec (.seImm x nn) s = .next { s with pc := if (s.v[x]).toNat = nn.toNat then s.pc + 4#16 else s.pc + 2#16 } ∧
    exec (.sneImm x nn) s = .next { s with pc := if (s.v[x]).toNat = nn.toNat then s.pc + 2#16 else s.pc + 4#16 } ∧
    (s.pc = 0xFFC#16 ∨ s.pc = 0xFFE#16 → (s.v[x]).toNat = nn.toNat →
      ∃ t a, exec (.seImm x nn) s = .next t ∧ t.fetch = .error a)

/-- SE VX, VY and SNE VX, VY (R126, R127; that words with another low nibble are unrecognised is the spec's decision D11). -/
def Obligations.SkipsOnRegisters : Prop :=
  Selects 0xF00F#16 0x5000#16 (fun w => .seReg (fieldX w) (fieldY w)) ∧
  Selects 0xF00F#16 0x9000#16 (fun w => .sneReg (fieldX w) (fieldY w)) ∧
  (∀ w : Word, w.toNat / 4096 = 5 ∨ w.toNat / 4096 = 9 → w.toNat % 16 ≠ 0 → decodeWord w = .error (.unrecognizedOpcode w)) ∧
  ∀ (s : State) (x y : Reg),
    exec (.seReg x y) s = .next { s with pc := if (s.v[x]).toNat = (s.v[y]).toNat then s.pc + 4#16 else s.pc + 2#16 } ∧
    exec (.sneReg x y) s = .next { s with pc := if (s.v[x]).toNat = (s.v[y]).toNat then s.pc + 2#16 else s.pc + 4#16 }

/-- JP V0, NNN (R128): the sum is not reduced (the spec's decision D31). -/
def Obligations.JumpWithOffsetAddsRegisterZero : Prop :=
  Selects 0xF000#16 0xB000#16 (fun w => .jpV0 (fieldNNN w)) ∧
  ∀ (s : State) (nnn : Addr), ∃ t, exec (.jpV0 nnn) s = .next t ∧ t = { s with pc := t.pc } ∧
    t.pc.toNat = nnn.toNat + (s.v[(0 : Reg)]).toNat

/-! ### Registers and arithmetic (spec/42_register_alu.md) -/

/-- LD VX, NN; ADD VX, NN; LD VX, VY (R140, R141, R142): no flag, whatever `X` is. -/
def Obligations.LoadsAndImmediateAdd : Prop :=
  Selects 0xF000#16 0x6000#16 (fun w => .ldImm (fieldX w) (fieldNN w)) ∧
  Selects 0xF000#16 0x7000#16 (fun w => .addImm (fieldX w) (fieldNN w)) ∧
  Selects 0xF00F#16 0x8000#16 (fun w => .ldReg (fieldX w) (fieldY w)) ∧
  ∀ (s : State) (x y : Reg) (nn : Byte),
    (∃ t, exec (.ldImm x nn) s = .next t ∧ RegResult s t x nn.toNat) ∧
    (∃ t, exec (.addImm x nn) s = .next t ∧ RegResult s t x (((s.v[x]).toNat + nn.toNat) % 256)) ∧
    (∃ t, exec (.ldReg x y) s = .next t ∧ RegResult s t x (s.v[y]).toNat)

/-- OR, AND, XOR (R143, R144, R145): bit by bit, and no flag (`VF` is not reset). -/
def Obligations.LogicalOperationsAreBitwise : Prop :=
  Selects 0xF00F#16 0x8001#16 (fun w => .or (fieldX w) (fieldY w)) ∧
  Selects 0xF00F#16 0x8002#16 (fun w => .and (fieldX w) (fieldY w)) ∧
  Selects 0xF00F#16 0x8003#16 (fun w => .xor (fieldX w) (fieldY w)) ∧
  ∀ (s : State) (x y : Reg),
    (∃ t, exec (.or x y) s = .next t ∧ RegResult s t x (t.v[x]).toNat ∧
      ∀ k < 8, (t.v[x]).getLsbD k = ((s.v[x]).getLsbD k || (s.v[y]).getLsbD k)) ∧
    (∃ t, exec (.and x y) s = .next t ∧ RegResult s t x (t.v[x]).toNat ∧
      ∀ k < 8, (t.v[x]).getLsbD k = ((s.v[x]).getLsbD k && (s.v[y]).getLsbD k)) ∧
    (∃ t, exec (.xor x y) s = .next t ∧ RegResult s t x (t.v[x]).toNat ∧
      ∀ k < 8, (t.v[x]).getLsbD k = ((s.v[x]).getLsbD k ^^ (s.v[y]).getLsbD k))

/-- ADD VX, VY (R146): the wrapped sum, and `VF` the carry, written last. -/
def Obligations.AddSetsCarry : Prop :=
  Selects 0xF00F#16 0x8004#16 (fun w => .add (fieldX w) (fieldY w)) ∧
  ∀ (s : State) (x y : Reg), ∃ t, exec (.add x y) s = .next t ∧
    RegFlagResult s t x (((s.v[x]).toNat + (s.v[y]).toNat) % 256) (decide ((s.v[x]).toNat + (s.v[y]).toNat > 255))

/-- SUB VX, VY (R147): the wrapped difference, and `VF` = 1 exactly when `V[X] ≥ V[Y]`, written last. -/
def Obligations.SubtractSetsNoBorrow : Prop :=
  Selects 0xF00F#16 0x8005#16 (fun w => .sub (fieldX w) (fieldY w)) ∧
  ∀ (s : State) (x y : Reg), ∃ t, exec (.sub x y) s = .next t ∧
    RegFlagResult s t x (((s.v[x]).toNat + 256 - (s.v[y]).toNat) % 256) (decide ((s.v[x]).toNat ≥ (s.v[y]).toNat))

/-- SUBN VX, VY (R149; that the trailing nibble is 7 is the spec's decision D7). -/
def Obligations.ReversedSubtractSetsNoBorrow : Prop :=
  Selects 0xF00F#16 0x8007#16 (fun w => .subn (fieldX w) (fieldY w)) ∧
  ∀ (s : State) (x y : Reg), ∃ t, exec (.subn x y) s = .next t ∧
    RegFlagResult s t x (((s.v[y]).toNat + 256 - (s.v[x]).toNat) % 256) (decide ((s.v[y]).toNat ≥ (s.v[x]).toNat))

/-- SHR VX and SHL VX (R148, R150; the source `V[X]` and the trailing nibbles are the spec's decisions D7, D8): `VF` is the
bit shifted out of the value before the shift, and every value of the `Y` field behaves alike. -/
def Obligations.ShiftsDropOneBitIntoTheFlag : Prop :=
  Selects 0xF00F#16 0x8006#16 (fun w => .shr (fieldX w) (fieldY w)) ∧
  Selects 0xF00F#16 0x800E#16 (fun w => .shl (fieldX w) (fieldY w)) ∧
  ∀ (s : State) (x y : Reg),
    (∃ t, exec (.shr x y) s = .next t ∧
      RegFlagResult s t x ((s.v[x]).toNat / 2) (decide ((s.v[x]).toNat % 2 = 1))) ∧
    (∃ t, exec (.shl x y) s = .next t ∧
      RegFlagResult s t x ((s.v[x]).toNat * 2 % 256) (decide ((s.v[x]).toNat ≥ 128))) ∧
    (∀ y', exec (.shr x y') s = exec (.shr x y) s ∧ exec (.shl x y') s = exec (.shl x y) s)

/-- RND VX, NN (R151): the step's random byte AND `NN`; the byte is a free value and each execution draws the next one (D14,
log 1), so the bits `NN` has 0 are all a claim may rely on. -/
def Obligations.RandomByteIsMasked : Prop :=
  Selects 0xF000#16 0xC000#16 (fun w => .rnd (fieldX w) (fieldNN w)) ∧
  ∀ (s : State) (x : Reg) (nn : Byte), ∃ t, exec (.rnd x nn) s = .next t ∧
    t = { s with v := t.v, pc := s.pc + 2#16, randIndex := s.randIndex + 1 } ∧
    t.v[x] = (Config.randByte s.randIndex &&& nn) ∧ (∀ k < 8, nn.getLsbD k = false → (t.v[x]).getLsbD k = false) ∧
    ∀ j : Reg, j ≠ x → t.v[j] = s.v[j]

/-! ### Index register and memory (spec/43_index_memory.md) -/

/-- LD I, NNN (R160): any `NNN` is accepted; only `I` and `PC` change. -/
def Obligations.IndexIsLoaded : Prop :=
  Selects 0xF000#16 0xA000#16 (fun w => .ldI (fieldNNN w)) ∧
  ∀ (s : State) (nnn : Addr), ∃ t, exec (.ldI nnn) s = .next t ∧ t = { s with i := t.i, pc := s.pc + 2#16 } ∧
    t.i.toNat = nnn.toNat

/-- LD F, VX (R162; that the font base is 0x000 is the spec's decision D2): `I` becomes five times the low nibble of `V[X]`, the
high nibble is ignored, and memory is not read, so with any other memory `I` becomes the same. -/
def Obligations.GlyphAddressIsLoaded : Prop :=
  Selects 0xF0FF#16 0xF029#16 (fun w => .ldF (fieldX w)) ∧
  ∀ (s : State) (x : Reg),
    (∃ t, exec (.ldF x) s = .next t ∧ t = { s with i := t.i, pc := s.pc + 2#16 } ∧ t.i.toNat = 5 * ((s.v[x]).toNat % 16)) ∧
    ∀ (t : State) (m : Memory), exec (.ldF x) s = .next t → exec (.ldF x) { s with mem := m } = .next { t with mem := m }

/-- ADD I, VX (R161): modulo 4096 (the spec's decision D9), `VF` = 1 exactly when the sum exceeds 0xFFF, written last. -/
def Obligations.AddToIndexSetsOverflow : Prop :=
  Selects 0xF0FF#16 0xF01E#16 (fun w => .addI (fieldX w)) ∧
  ∀ (s : State) (x : Reg), ∃ t, exec (.addI x) s = .next t ∧
    t = { s with v := t.v, i := t.i, pc := s.pc + 2#16 } ∧ t.i.toNat = (s.i.toNat + (s.v[x]).toNat) % 4096 ∧
    (t.v[(15 : Reg)]).toNat = (if s.i.toNat + (s.v[x]).toNat > 0xFFF then 1 else 0) ∧
    ∀ j : Reg, j ≠ 15 → t.v[j] = s.v[j]

/-- LD B, VX (R163): the three decimal digits at `I`, `I+1`, `I+2`, every other byte as before, `I` unchanged; with
`I + 2 > 0xFFF` a fault and nothing written. -/
def Obligations.DecimalDigitsAreStored : Prop :=
  Selects 0xF0FF#16 0xF033#16 (fun w => .ldB (fieldX w)) ∧
  ∀ (s : State) (x : Reg),
    (s.i.toNat + 2 ≤ 0xFFF → ∃ t, exec (.ldB x) s = .next t ∧ t = { s with mem := t.mem, pc := s.pc + 2#16 } ∧
      (t.byteAt s.i.toNat).toNat = (s.v[x]).toNat / 100 ∧ (t.byteAt (s.i.toNat + 1)).toNat = (s.v[x]).toNat / 10 % 10 ∧
      (t.byteAt (s.i.toNat + 2)).toNat = (s.v[x]).toNat % 10 ∧
      ∀ a, a < s.i.toNat ∨ s.i.toNat + 2 < a → t.byteAt a = s.byteAt a) ∧
    (s.i.toNat + 2 > 0xFFF → exec (.ldB x) s = .next (s.faultEntry .memOutOfRange (encode (.ldB x)) 0x1000#16))

/-- LD [I], VX (R164; that `I` is unchanged is the spec's decision D12): `V[k]` at `I + k` for `k ≤ X`, every other byte as
before; with `I + X > 0xFFF` a fault and nothing written. -/
def Obligations.RegistersAreStored : Prop :=
  Selects 0xF0FF#16 0xF055#16 (fun w => .ldMemVx (fieldX w)) ∧
  ∀ (s : State) (x : Reg),
    (s.i.toNat + x.val ≤ 0xFFF → ∃ t, exec (.ldMemVx x) s = .next t ∧ t = { s with mem := t.mem, pc := s.pc + 2#16 } ∧
      (∀ k : Reg, k ≤ x → t.byteAt (s.i.toNat + k.val) = s.v[k]) ∧
      ∀ a, a < s.i.toNat ∨ s.i.toNat + x.val < a → t.byteAt a = s.byteAt a) ∧
    (s.i.toNat + x.val > 0xFFF → exec (.ldMemVx x) s = .next (s.faultEntry .memOutOfRange (encode (.ldMemVx x)) 0x1000#16))

/-- LD VX, [I] (R165; that `I` is unchanged is the spec's decision D12): `V[k]` from `I + k` for `k ≤ X`, the other registers
and all of memory as before; with `I + X > 0xFFF` a fault and no register written. -/
def Obligations.RegistersAreLoaded : Prop :=
  Selects 0xF0FF#16 0xF065#16 (fun w => .ldVxMem (fieldX w)) ∧
  ∀ (s : State) (x : Reg),
    (s.i.toNat + x.val ≤ 0xFFF → ∃ t, exec (.ldVxMem x) s = .next t ∧ t = { s with v := t.v, pc := s.pc + 2#16 } ∧
      ∀ k : Reg, t.v[k] = if k ≤ x then s.byteAt (s.i.toNat + k.val) else s.v[k]) ∧
    (s.i.toNat + x.val > 0xFFF → exec (.ldVxMem x) s = .next (s.faultEntry .memOutOfRange (encode (.ldVxMem x)) 0x1000#16))

/-- `FX55` followed by `FX65` with the same `X` and `I` restores the same values, whatever the registers hold in between
(R165). -/
def Obligations.StoreThenLoadRestoresRegisters : Prop :=
  ∀ (s t : State) (x : Reg) (v : Vector Byte 16), s.i.toNat + x.val ≤ 0xFFF → exec (.ldMemVx x) s = .next t →
    ∃ u, exec (.ldVxMem x) { t with v := v } = .next u ∧ ∀ k : Reg, u.v[k] = if k ≤ x then s.v[k] else v[k]

/-- Stores are seen by the very next fetch, whichever instruction makes them and whether they hit both bytes of the next word,
one, or none: after `FX55` or `FX33` the fetch at `pc + 2` reads, high byte first, the stored byte where one was stored and the
old byte elsewhere (R68). -/
def Obligations.StoreIsSeenByTheNextFetch : Prop :=
  ∀ (s : State) (x : Reg), s.pc.toNat + 3 ≤ 0xFFF →
    (s.i.toNat + x.val ≤ 0xFFF → ∃ t op, exec (.ldMemVx x) s = .next t ∧ t.fetch = .ok op ∧
      op.toNat = 256 * (s.byteAfterRegs x (s.pc.toNat + 2)).toNat + (s.byteAfterRegs x (s.pc.toNat + 3)).toNat) ∧
    (s.i.toNat + 2 ≤ 0xFFF → ∃ t op, exec (.ldB x) s = .next t ∧ t.fetch = .ok op ∧
      op.toNat = 256 * s.byteAfterDigits x (s.pc.toNat + 2) + s.byteAfterDigits x (s.pc.toNat + 3))

/-! ### Display (spec/44_display.md) -/

/-- CLS (R181): every pixel off, `VF` and everything else as before; no `present` (the spec's decision D22). -/
def Obligations.ClearTurnsEveryPixelOff : Prop :=
  Selects 0xFFFF#16 0x00E0#16 (fun _ => .cls) ∧
  ∀ s : State, ∃ t, exec .cls s = .next t ∧ t = { s with fb := t.fb, pc := s.pc + 2#16 } ∧
    ∀ x < 64, ∀ y < 32, t.pixel x y = false

/-- DRW VX, VY, N (R182, R183, R185; clipping is the spec's decision D10, the check of clipped rows D25, `present` D22): each
surface pixel is exclusive-ored with the sprite bit that lands on it, `VF` is 1 exactly when a lit pixel was hit, one
`present`, nothing else; a sprite that runs past 0xFFF is a fault and nothing is drawn. -/
def Obligations.SpriteIsDrawnByExclusiveOr : Prop :=
  Selects 0xF000#16 0xD000#16 (fun w => .drw (fieldX w) (fieldY w) (fieldN w)) ∧
  ∀ (s : State) (x y : Reg) (n : Nat),
    (n = 0 ∨ s.i.toNat + n - 1 ≤ 0xFFF → ∃ t, exec (.drw x y n) s = .next t ∧
      t = { s with fb := t.fb, v := t.v, pc := s.pc + 2#16, presentCount := s.presentCount + 1 } ∧
      (∀ px < 64, ∀ py < 32, t.pixel px py = (s.pixel px py ^^ s.spriteCovers x y n px py)) ∧
      ((∃ px < 64, ∃ py < 32, s.spriteCovers x y n px py = true ∧ s.pixel px py = true) → t.v[(15 : Reg)] = 1#8) ∧
      (¬(∃ px < 64, ∃ py < 32, s.spriteCovers x y n px py = true ∧ s.pixel px py = true) → t.v[(15 : Reg)] = 0#8) ∧
      ∀ j : Reg, j ≠ 15 → t.v[j] = s.v[j]) ∧
    (1 ≤ n ∧ s.i.toNat + n - 1 > 0xFFF →
      exec (.drw x y n) s = .next (s.faultEntry .memOutOfRange (encode (.drw x y n)) 0x1000#16))

/-- Laws of the draw (R184 (a), (b)): a second identical draw at the same origin restores the surface; over pixels that
were all off the first draw gives `VF` = 0, the second `VF` = 1 if the sprite has an unclipped set bit, the third `VF` = 0
again. -/
def Obligations.RedrawingErasesTheSprite : Prop :=
  ∀ (s t u w : State) (x y : Reg) (n : Nat), x ≠ 15 → y ≠ 15 → (n = 0 ∨ s.i.toNat + n - 1 ≤ 0xFFF) →
    exec (.drw x y n) s = .next t → exec (.drw x y n) t = .next u → exec (.drw x y n) u = .next w →
    u.fb = s.fb ∧ w.fb = t.fb ∧
    ((∀ px < 64, ∀ py < 32, s.spriteCovers x y n px py = true → s.pixel px py = false) →
      t.v[(15 : Reg)] = 0#8 ∧ w.v[(15 : Reg)] = 0#8 ∧
      (u.v[(15 : Reg)] = 1#8 ↔ ∃ px < 64, ∃ py < 32, s.spriteCovers x y n px py = true))

/-! ### Keypad and timers (spec/45_keypad_timers.md, spec/60_exceptions.md) -/

/-- SKP VX and SKNP VX (R191, R192): the whole byte is the key number; above 15 it is a fault, else the skip follows the
key's flag. -/
def Obligations.KeyTestsFollowTheKeyFlag : Prop :=
  Selects 0xF0FF#16 0xE09E#16 (fun w => .skp (fieldX w)) ∧ Selects 0xF0FF#16 0xE0A1#16 (fun w => .sknp (fieldX w)) ∧
  ∀ (s : State) (x : Reg),
    ((s.v[x]).toNat ≤ 15 →
      exec (.skp x) s = .next { s with pc := if s.keys.getLsbD (s.v[x]).toNat then s.pc + 4#16 else s.pc + 2#16 } ∧
      exec (.sknp x) s = .next { s with pc := if s.keys.getLsbD (s.v[x]).toNat then s.pc + 2#16 else s.pc + 4#16 }) ∧
    ((s.v[x]).toNat > 15 →
      exec (.skp x) s = .next (s.faultEntry .invalidKeyIndex (encode (.skp x)) (BitVec.ofNat 16 (s.v[x]).toNat)) ∧
      exec (.sknp x) s = .next (s.faultEntry .invalidKeyIndex (encode (.sknp x)) (BitVec.ofNat 16 (s.v[x]).toNat)))

/-- LD VX, K (R193; level sensitivity and the lowest key are the spec's decisions D29, D13): with no key down nothing at all
changes; else the lowest pressed key goes to `V[X]`. -/
def Obligations.KeyWaitHoldsOrTakesTheLowestKey : Prop :=
  Selects 0xF0FF#16 0xF00A#16 (fun w => .ldVxK (fieldX w)) ∧
  ∀ (s : State) (x : Reg),
    (s.keys = 0#16 → exec (.ldVxK x) s = .next s) ∧
    (s.keys ≠ 0#16 → ∃ k < 16, s.keys.getLsbD k = true ∧ (∀ j < k, s.keys.getLsbD j = false) ∧
      ∃ t, exec (.ldVxK x) s = .next t ∧ RegResult s t x k)

/-- LD VX, DT; LD DT, VX; LD ST, VX (R194, R195, R196): a byte moves, nothing else changes. Between a write of the delay timer
and a later read of it any instructions but another write may stand, and `n` ticks in between take `n` off, clamped at 0. After a
write of the sound timer `sound_on` is 1 until as many ticks as the value have come. -/
def Obligations.TimerAccessMovesAByte : Prop :=
  Selects 0xF0FF#16 0xF007#16 (fun w => .ldVxDt (fieldX w)) ∧ Selects 0xF0FF#16 0xF015#16 (fun w => .ldDtVx (fieldX w)) ∧
  Selects 0xF0FF#16 0xF018#16 (fun w => .ldStVx (fieldX w)) ∧
  (∀ (s : State) (x : Reg),
    (∃ t, exec (.ldVxDt x) s = .next t ∧ RegResult s t x s.dt.toNat) ∧
    exec (.ldDtVx x) s = .next { s with dt := s.v[x], pc := s.pc + 2#16 } ∧
    exec (.ldStVx x) s = .next { s with st := s.v[x], pc := s.pc + 2#16 }) ∧
  (∀ (s t u w : State) (x y : Reg) (n : Nat), exec (.ldDtVx x) s = .next t → DelayRun t n u →
    exec (.ldVxDt y) u = .next w → (w.v[y]).toNat = (s.v[x]).toNat - n) ∧
  ∀ (s t : State) (x : Reg) (n : Nat), s.halted = false → exec (.ldStVx x) s = .next t →
    ((State.timerTick^[n] t).soundOn = true ↔ n < (s.v[x]).toNat)

/-- The timer tick (R230): a move of the timer agent decrements both timers, each clamped at 0, and touches nothing
else; whose move it is, is the model's `schedule` and `round` (logs 2, 42). -/
def Obligations.TickDecrementsBothTimers : Prop :=
  ∀ s : State, s.halted = false → s.nextEvent = .timerTick →
    ∃ t, step s = .next t ∧
      t = { s with dt := t.dt, st := t.st, schedule := s.afterTurn.schedule, round := s.afterTurn.round } ∧
      t.dt.toNat = (if s.dt.toNat > 0 then s.dt.toNat - 1 else 0) ∧
      t.st.toNat = (if s.st.toNat > 0 then s.st.toNat - 1 else 0)

/-- A timer written with `v` reaches 0 after exactly `v` ticks, and `sound_on` is 1 exactly while `ST > 0` (R231, R232). -/
def Obligations.CountdownTakesAsManyTicksAsItsValue : Prop :=
  ∀ (s : State) (n : Nat), s.halted = false →
    (State.timerTick^[n] s).dt.toNat = s.dt.toNat - n ∧ (State.timerTick^[n] s).st.toNat = s.st.toNat - n ∧
    ((State.timerTick^[n] s).soundOn = true ↔ n < s.st.toNat)

/-! ### The agents (spec/40_step_cycle.md) -/

/-- Any finite sequence of moves of the agents is a run of the machine, each move made in its turn (R100, R109, the spec's decision
D20): a coinciding `cpu_step` and `timer_tick` in either order, any number of steps per tick. The list of moves is the model's
`schedule` (log 2). -/
def Obligations.EverySequenceOfMovesIsARun : Prop :=
  ∀ (es : List Event) (s : State), core.run es.length { s with schedule := es ++ s.schedule } = takeMoves es s

/-- Fairness (R109): from every state whose listed moves the host may make, the machine runs for ever, and however far it has
run, a CPU step and a timer tick are still to come, whatever the CPU is executing; so in every infinite run the timer is never
starved by the CPU, nor the CPU by the timer. The moves that are not listed are free values (log 42). -/
def Obligations.BothAgentsMoveForever : Prop :=
  ∀ s : State, (∀ e ∈ s.schedule, e.launchable = true) →
    (∀ k, ∃ t, core.run k s = .next t) ∧
    ∀ n, (∃ k ≥ n, ∃ t, core.run k s = .next t ∧ t.nextEvent = .cpuStep) ∧
      ∃ k ≥ n, ∃ t, core.run k s = .next t ∧ t.nextEvent = .timerTick

/-! ### Whole-machine rules -/

/-- Who writes what (R20, R26, R28 to R34, R36, R39, R56): each piece of state outside the registers is changed only by the
instructions the spec names for it; the key flags by none; and a store leaves every byte outside the stored ones alone. Of the
model's own fields, `randIndex` counts the random bytes that `CXNN` draws (log 1), and no instruction writes `schedule` and
`round`, which belong to the agents (logs 2, 42). -/
def Obligations.EachPieceOfStateHasItsWriters : Prop :=
  ∀ (i : Instr) (s t : State), exec i s = .next t →
    (t.i ≠ s.i → (∃ nnn, i = .ldI nnn) ∨ (∃ x, i = .addI x) ∨ ∃ x, i = .ldF x) ∧
    (t.dt ≠ s.dt → ∃ x, i = .ldDtVx x) ∧ (t.st ≠ s.st → ∃ x, i = .ldStVx x) ∧
    (t.stack ≠ s.stack → ∃ nnn, i = .call nnn) ∧ (t.sp ≠ s.sp → i = .ret ∨ ∃ nnn, i = .call nnn) ∧
    (t.mem ≠ s.mem → (∃ x, i = .ldB x) ∨ ∃ x, i = .ldMemVx x) ∧
    (∀ x a, i = .ldB x → a < s.i.toNat ∨ s.i.toNat + 2 < a → t.byteAt a = s.byteAt a) ∧
    (∀ x a, i = .ldMemVx x → a < s.i.toNat ∨ s.i.toNat + x.val < a → t.byteAt a = s.byteAt a) ∧
    (t.fb ≠ s.fb → i = .cls ∨ ∃ x y n, i = .drw x y n) ∧
    (t.presentCount ≠ s.presentCount → ∃ x y n, i = .drw x y n) ∧ (t.randIndex ≠ s.randIndex → ∃ x nn, i = .rnd x nn) ∧
    t.keys = s.keys ∧ t.schedule = s.schedule ∧ t.round = s.round

/-- Which registers an instruction writes (R21, R22): `V[X]` for the fourteen instructions with a register destination,
`V[0..X]` for `FX65`, `VF` for the seven flag writers, and no other. -/
def Obligations.RegistersChangeOnlyAsDestinationOrFlag : Prop :=
  ∀ (i : Instr) (s t : State) (j : Reg), exec i s = .next t → t.v[j] ≠ s.v[j] →
    (∃ nn y, i = .ldImm j nn ∨ i = .addImm j nn ∨ i = .rnd j nn ∨ i = .ldReg j y ∨ i = .or j y ∨ i = .and j y ∨
      i = .xor j y ∨ i = .add j y ∨ i = .sub j y ∨ i = .shr j y ∨ i = .subn j y ∨ i = .shl j y ∨ i = .ldVxDt j ∨
      i = .ldVxK j) ∨
    (∃ x, i = .ldVxMem x ∧ j ≤ x) ∨
    (j = 15 ∧ ∃ x y n, i = .add x y ∨ i = .sub x y ∨ i = .shr x y ∨ i = .subn x y ∨ i = .shl x y ∨ i = .drw x y n ∨
      i = .addI x)

/-- How `PC` changes (R25, R106): a fault keeps it; else it is one of the classes of R25, each for its instructions. -/
def Obligations.NextPcIsOneOfItsClasses : Prop :=
  ∀ (i : Instr) (s t : State), s.halted = false → exec i s = .next t →
    (t.halted = true ∧ t.pc = s.pc) ∨
    (i = .ret ∧ ∃ k : Fin 16, s.sp = k.succ ∧ t.pc = s.stack[k]) ∨
    (∃ nnn, (i = .jp nnn ∨ i = .call nnn) ∧ t.pc.toNat = nnn.toNat) ∨
    (∃ nnn, i = .jpV0 nnn ∧ t.pc.toNat = nnn.toNat + (s.v[(0 : Reg)]).toNat) ∨
    (∃ x, i = .ldVxK x ∧ s.keys = 0#16 ∧ t = s) ∨
    ((∃ x y nn, i = .seImm x nn ∨ i = .sneImm x nn ∨ i = .seReg x y ∨ i = .sneReg x y ∨ i = .skp x ∨ i = .sknp x) ∧
      t.pc = s.pc + 4#16) ∨
    ((i ≠ .ret ∧ ∀ nnn, i ≠ .jp nnn ∧ i ≠ .call nnn ∧ i ≠ .jpV0 nnn) ∧ t.pc = s.pc + 2#16)

/-- No instruction reads `ST` (R29): with another value in it an instruction does the same, and leaves that other value
where it leaves `ST` alone; the one that writes `ST` does not see the old value. -/
def Obligations.NoInstructionReadsTheSoundTimer : Prop :=
  ∀ (i : Instr) (s t : State) (b : Byte), exec i s = .next t →
    ((∀ x, i ≠ .ldStVx x) → exec i { s with st := b } = .next { t with st := b }) ∧
    ((∃ x, i = .ldStVx x) → exec i { s with st := b } = .next t)

/-- A tick and an instruction that uses no timer commute, so the order of a coinciding `cpu_step` and `timer_tick` matters
only to the timer instructions (R109, R230, the spec's decision D20) and to a faulting step (R220). -/
def Obligations.TickCommutesWithUntimedInstructions : Prop :=
  ∀ (i : Instr) (s t : State), s.halted = false → (∀ x, i ≠ .ldVxDt x ∧ i ≠ .ldDtVx x ∧ i ≠ .ldStVx x) →
    exec i s = .next t → t.halted = false → exec i s.timerTick = .next t.timerTick

/-- The invariant is kept by every move of every agent, from every state that has it: memory in canonical form (the model's own
form, log 6), `I ≤ 0xFFF` (R27), `PC ≤ 0x10FE` (R25), live stack entries at most 0x1000 (R31, R123), the fault record empty exactly
while running (R37, R38, R221). -/
def Obligations.EveryMoveKeepsTheInvariant : Prop :=
  ∀ s t : State, s.Inv → step s = .next t → t.Inv

/-- The state after reset has the invariant that every move keeps; its stack is empty, so the invariant says nothing of the dead
entries that R41 leaves unspecified. -/
def Obligations.ResetHasTheInvariant : Prop := State.reset.Inv

/-! ### Reset and the outside (spec/70_reset_and_hazards.md, spec/40_step_cycle.md) -/

/-- The state after reset with an empty image (R41): the values the spec gives for every register it names; all 80 bytes of the
font at 0x000 (the table of R60 is general knowledge, log 7; the base is the spec's decision D2), a zero cell after it (D15). -/
def Obligations.ResetValues : Prop :=
  (∀ j : Reg, State.reset.v[j] = 0#8) ∧ State.reset.pc = 0x200#16 ∧ State.reset.i = 0#16 ∧ State.reset.dt = 0#8 ∧
  State.reset.st = 0#8 ∧ State.reset.sp = 0 ∧ State.reset.halted = false ∧ State.reset.faultCause.code = 0#3 ∧
  State.reset.faultPc = 0#16 ∧ State.reset.faultOp = 0#16 ∧ State.reset.faultInfo = 0#16 ∧ State.reset.soundOn = false ∧
  State.reset.mem.load 0x000 20 = [0xF0#8, 0x90#8, 0x90#8, 0x90#8, 0xF0#8] ++ [0x20#8, 0x60#8, 0x20#8, 0x20#8, 0x70#8] ++
    [0xF0#8, 0x10#8, 0xF0#8, 0x80#8, 0xF0#8] ++ [0xF0#8, 0x10#8, 0xF0#8, 0x10#8, 0xF0#8] ∧
  State.reset.mem.load 0x014 20 = [0x90#8, 0x90#8, 0xF0#8, 0x10#8, 0x10#8] ++ [0xF0#8, 0x80#8, 0xF0#8, 0x10#8, 0xF0#8] ++
    [0xF0#8, 0x80#8, 0xF0#8, 0x90#8, 0xF0#8] ++ [0xF0#8, 0x10#8, 0x20#8, 0x40#8, 0x40#8] ∧
  State.reset.mem.load 0x028 20 = [0xF0#8, 0x90#8, 0xF0#8, 0x90#8, 0xF0#8] ++ [0xF0#8, 0x90#8, 0xF0#8, 0x10#8, 0xF0#8] ++
    [0xF0#8, 0x90#8, 0xF0#8, 0x90#8, 0x90#8] ++ [0xE0#8, 0x90#8, 0xE0#8, 0x90#8, 0xE0#8] ∧
  State.reset.mem.load 0x03C 20 = [0xF0#8, 0x80#8, 0x80#8, 0x80#8, 0xF0#8] ++ [0xE0#8, 0x90#8, 0x90#8, 0x90#8, 0xE0#8] ++
    [0xF0#8, 0x80#8, 0xF0#8, 0x80#8, 0xF0#8] ++ [0xF0#8, 0x80#8, 0xF0#8, 0x80#8, 0x80#8] ∧
  State.reset.byteAt 0x050 = 0#8

/-- Reset from any state, halted or not (R41, R250, R251, R252; D15, D16, D34): memory is rebuilt from zeros, font and image
(the font of R60 below 80 is as in `State.reset`, whose bytes `ResetValues` states: log 7, D2), registers and fault record are
cleared, the surface shows what it is given, the key flags are not touched. That the coming moves of the agents stay, the model's
`schedule` and `round`, is the model's choice (log 28). -/
def Obligations.ResetRebuildsEverything : Prop :=
  ∀ (s : State) (rom : List Byte) (f : Framebuffer), s.nextEvent = .reset rom f → rom.length ≤ 3584 →
    ∃ t, step s = .next t ∧ (∀ j : Reg, t.v[j] = 0#8) ∧ t.pc = 0x200#16 ∧ t.i = 0#16 ∧ t.dt = 0#8 ∧ t.st = 0#8 ∧
      t.sp = 0 ∧ t.fb = f ∧ t.keys = s.keys ∧ t.halted = false ∧ t.faultCause = .none ∧ t.faultPc = 0#16 ∧
      t.faultOp = 0#16 ∧ t.faultInfo = 0#16 ∧ t.schedule = s.afterTurn.schedule ∧ t.round = s.afterTurn.round ∧
      ∀ a, t.byteAt a =
        if 0x200 ≤ a ∧ a < 0x200 + rom.length then rom.getD (a - 0x200) 0#8
        else if a < 80 then State.reset.byteAt a else 0#8

/-- The first instruction is the program's (R253): the first fetch after reset reads the first two bytes of the image; with an
empty image the first CPU step is an `UnrecognizedOpcode` fault at 0x200. -/
def Obligations.FirstFetchReadsTheImage : Prop :=
  (∀ (s : State) (hi lo : Byte) (rest : List Byte) (f : Framebuffer), rest.length ≤ 3582 →
    ∃ op, (s.resetWith (hi :: lo :: rest) f).fetch = .ok op ∧ op.toNat = 256 * hi.toNat + lo.toNat) ∧
  ∀ es : List Event, step { State.reset with schedule := .cpuStep :: es } =
    .next (State.faultEntry { State.reset with schedule := es } .unrecognizedOpcode 0#16 0#16)

/-- The input collaborator's move replaces `keys` by any 16-bit value and changes nothing else, whatever the core does
(R108); whose move it is, is the model's `schedule` and `round` (logs 2, 42). -/
def Obligations.KeyFlagsAreDrivenFromOutside : Prop :=
  ∀ (s : State) (k : Word), s.nextEvent = .setKeys k →
    step s = .next { s with keys := k, schedule := s.afterTurn.schedule, round := s.afterTurn.round }
end

