-- ==== Sys2Proof/Laws/Decode.lean ====
section
/-! SUPPORT. Words as numbers: the value of a word made of fields, and the fields of a word as quotients and remainders. With
them a statement about an encoding is linear arithmetic. -/

namespace Sys2Proof

theorem toNat_append_eq {m n : Nat} (a : BitVec m) (b : BitVec n) : (a ++ b).toNat = a.toNat * 2 ^ n + b.toNat := by
  rw [BitVec.toNat_append, ← Nat.shiftLeft_add_eq_or_of_lt b.isLt, Nat.shiftLeft_eq]

theorem toNat_word_addr (a : BitVec 4) (nnn : Addr) : (a ++ nnn : Word).toNat = 4096 * a.toNat + nnn.toNat := by
  have := toNat_append_eq a nnn
  simp only [Nat.reducePow, Nat.reduceAdd] at this ⊢
  omega

theorem toNat_word_regByte (a x : BitVec 4) (nn : Byte) :
    (a ++ x ++ nn : Word).toNat = 4096 * a.toNat + 256 * x.toNat + nn.toNat := by
  have h1 := toNat_append_eq (a ++ x) nn
  have h2 := toNat_append_eq a x
  simp only [Nat.reducePow, Nat.reduceAdd] at h1 h2 ⊢
  omega

theorem toNat_word_nibbles (a x y b : BitVec 4) :
    (a ++ x ++ y ++ b : Word).toNat = 4096 * a.toNat + 256 * x.toNat + 16 * y.toNat + b.toNat := by
  have h1 := toNat_append_eq (a ++ x ++ y) b
  have h2 := toNat_append_eq (a ++ x) y
  have h3 := toNat_append_eq a x
  simp only [Nat.reducePow, Nat.reduceAdd] at h1 h2 h3 ⊢
  omega

theorem toNat_wordOfBytes (hi lo : Byte) : (wordOfBytes hi lo).toNat = 256 * hi.toNat + lo.toNat := by
  have := toNat_append_eq hi lo
  simp only [wordOfBytes, Nat.reducePow, Nat.reduceAdd] at this ⊢
  omega

theorem toNat_nibbleOfReg (x : Reg) : (nibbleOfReg x).toNat = x.val := by
  simp [nibbleOfReg]

/-- Laying a word out as two bytes and reading it back gives the word (R53). -/
theorem wordOfBytes_high_low (w : Word) : wordOfBytes (wordHigh w) (wordLow w) = w := by
  apply BitVec.eq_of_toNat_eq
  rw [toNat_wordOfBytes]
  have := w.isLt
  simp only [wordHigh, wordLow, BitVec.extractLsb'_toNat, Nat.shiftRight_eq_div_pow]
  norm_num
  omega

end Sys2Proof
end

