-- ==== Sys2Proof/Laws/Memory.lean ====
section
/-! SUPPORT. The laws of main memory: a read after a write, what a store and a load do, and that every memory operation keeps
the canonical form. -/

namespace Sys2Proof.Machine

theorem Memory.read_nil (a : Nat) : Memory.read [] a = Memory.initial a := rfl

theorem Memory.lookup_put (m : Memory) (a a' : Nat) (b : Byte) :
    (m.put a b).lookup a' = if a' = a then some b else m.lookup a' := by
  induction m with
  | nil => simp only [Memory.put, Memory.lookup, eq_comm]
  | cons c m ih =>
    obtain ⟨k, d⟩ := c
    simp only [Memory.put]
    split
    · simp only [Memory.lookup, eq_comm]
    · split
      · next h => subst h; simp only [Memory.lookup, eq_comm]; split <;> rfl
      · simp only [Memory.lookup, ih]
        split <;> split <;> first | rfl | omega

theorem Memory.lookup_drop (m : Memory) (a a' : Nat) :
    (m.drop a).lookup a' = if a' = a then none else m.lookup a' := by
  induction m with
  | nil => simp [Memory.drop, Memory.lookup]
  | cons c m ih =>
    obtain ⟨k, d⟩ := c
    simp only [Memory.drop]
    split
    · next h => subst h; rw [ih, Memory.lookup]; split <;> simp_all [eq_comm]
    · next h => simp only [Memory.lookup, ih]; split <;> split <;> first | rfl | omega

/-- A read after a write (R58): the byte written at that address, every other address as before. -/
theorem Memory.read_write (m : Memory) (a a' : Nat) (b : Byte) :
    (m.write a b).read a' = if a' = a ∧ a < Config.memSize then b else m.read a' := by
  unfold Memory.write Memory.read
  by_cases ha : a < Config.memSize
  · by_cases hb : b = Memory.initial a <;> by_cases h : a' = a <;> simp_all [lookup_drop, lookup_put]
  · simp [ha]

/-- A read after a store: the stored bytes where they lie, every other address as before (R54, R58). -/
theorem Memory.read_store (bs : List Byte) : ∀ (m : Memory) (a a' : Nat), a + bs.length ≤ Config.memSize →
    (m.store a bs).read a' = if a ≤ a' ∧ a' < a + bs.length then bs.getD (a' - a) 0#8 else m.read a' := by
  induction bs with
  | nil => intro m a a' _; simp [Memory.store]
  | cons b bs ih =>
    intro m a a' h
    simp only [List.length_cons] at h
    rw [Memory.store, ih _ _ _ (by omega), read_write]
    simp only [List.length_cons]
    rcases Nat.lt_trichotomy a' a with h1 | h1 | h1
    · rw [if_neg (by omega), if_neg (by omega), if_neg (by omega)]
    · subst h1
      rw [if_neg (by omega), if_pos ⟨rfl, by omega⟩, if_pos (by omega)]
      simp
    · rw [if_neg (c := a' = a ∧ _) (by omega)]
      by_cases h2 : a' < a + (bs.length + 1)
      · rw [if_pos (by omega), if_pos (by omega), show a' - a = (a' - (a + 1)) + 1 by omega, List.getD_cons_succ]
      · rw [if_neg (by omega), if_neg (by omega)]

/-- A store leaves every byte outside the stored ones as it was. -/
theorem Memory.read_store_outside (bs : List Byte) : ∀ (m : Memory) (a a' : Nat),
    ¬(a ≤ a' ∧ a' < a + bs.length) → (m.store a bs).read a' = m.read a' := by
  induction bs with
  | nil => intro m a a' _; rfl
  | cons b bs ih =>
    intro m a a' h
    simp only [List.length_cons] at h
    rw [Memory.store, ih _ _ _ (by omega), read_write, if_neg (by omega)]

/-- A load gives the bytes in ascending order (R54, R56). -/
theorem Memory.load_getD (m : Memory) : ∀ (n a k : Nat), (m.load a n).getD k 0#8 = if k < n then m.read (a + k) else 0#8 := by
  intro n
  induction n with
  | zero => intro a k; simp [Memory.load]
  | succ n ih =>
    intro a k
    cases k with
    | zero => simp [Memory.load]
    | succ k =>
      rw [Memory.load, List.getD_cons_succ, ih, show a + 1 + k = a + (k + 1) by omega]
      simp

theorem Memory.load_length (m : Memory) : ∀ (n a : Nat), (m.load a n).length = n := by
  intro n
  induction n with
  | zero => intro a; rfl
  | succ n ih => intro a; simp [Memory.load, ih]

/-! ### The canonical form -/

theorem Memory.wfFrom_mono {m : Memory} {low low' : Nat} (h : Memory.wfFrom low m = true) (hl : low' ≤ low) :
    Memory.wfFrom low' m = true := by
  cases m with
  | nil => rfl
  | cons c m =>
    simp only [Memory.wfFrom, Bool.and_eq_true, decide_eq_true_eq] at h ⊢
    exact ⟨⟨⟨by omega, h.1.1.2⟩, h.1.2⟩, h.2⟩

theorem Memory.wfFrom_put (b : Byte) {a : Nat} (ha : a < Config.memSize) (hb : b ≠ Memory.initial a) :
    ∀ (m : Memory) (low : Nat), Memory.wfFrom low m = true → low ≤ a → Memory.wfFrom low (m.put a b) = true := by
  intro m
  induction m with
  | nil => intro low _ hl; simp [Memory.put, Memory.wfFrom, hl, ha, hb]
  | cons c m ih =>
    obtain ⟨k, d⟩ := c
    intro low h hl
    simp only [Memory.wfFrom, Bool.and_eq_true, decide_eq_true_eq, bne_iff_ne] at h
    simp only [Memory.put]
    split
    · simp only [Memory.wfFrom, Bool.and_eq_true, decide_eq_true_eq, bne_iff_ne]
      exact ⟨⟨⟨hl, ha⟩, hb⟩, ⟨⟨by omega, h.1.1.2⟩, h.1.2⟩, h.2⟩
    · split
      · next hk =>
        subst hk
        simp only [Memory.wfFrom, Bool.and_eq_true, decide_eq_true_eq, bne_iff_ne]
        exact ⟨⟨⟨hl, ha⟩, hb⟩, h.2⟩
      · simp only [Memory.wfFrom, Bool.and_eq_true, decide_eq_true_eq, bne_iff_ne]
        exact ⟨h.1, ih _ h.2 (by omega)⟩

theorem Memory.wfFrom_drop (a : Nat) :
    ∀ (m : Memory) (low : Nat), Memory.wfFrom low m = true → Memory.wfFrom low (m.drop a) = true := by
  intro m
  induction m with
  | nil => intro low _; rfl
  | cons c m ih =>
    obtain ⟨k, d⟩ := c
    intro low h
    simp only [Memory.wfFrom, Bool.and_eq_true, decide_eq_true_eq, bne_iff_ne] at h
    simp only [Memory.drop]
    split
    · exact wfFrom_mono (ih _ h.2) (by omega)
    · simp only [Memory.wfFrom, Bool.and_eq_true, decide_eq_true_eq, bne_iff_ne]
      exact ⟨h.1, ih _ h.2⟩

theorem Memory.wf_nil : Memory.wf [] = true := rfl

theorem Memory.wf_write {m : Memory} (a : Nat) (b : Byte) (h : m.wf = true) : (m.write a b).wf = true := by
  unfold Memory.write
  split
  · split
    · exact wfFrom_drop a m 0 h
    · next ha hb => exact wfFrom_put b ha hb m 0 h (by omega)
  · exact h

/-- Every store keeps the canonical form. -/
theorem Memory.wf_store (bs : List Byte) : ∀ {m : Memory} (a : Nat), m.wf = true → (m.store a bs).wf = true := by
  induction bs with
  | nil => intro m a h; exact h
  | cons b bs ih => intro m a h; exact ih (a + 1) (wf_write a b h)

theorem Memory.lookup_below : ∀ (m : Memory) (low a : Nat), Memory.wfFrom low m = true → a < low → m.lookup a = none := by
  intro m
  induction m with
  | nil => intro low a _ _; rfl
  | cons c m ih =>
    obtain ⟨k, d⟩ := c
    intro low a h hl
    simp only [Memory.wfFrom, Bool.and_eq_true, decide_eq_true_eq, bne_iff_ne] at h
    simp only [Memory.lookup]
    rw [if_neg (by omega)]
    exact ih (k + 1) a h.2 (by omega)

/-- Memories in canonical form that read alike everywhere are the same list: equal memories are equal data. -/
theorem Memory.wfFrom_ext : ∀ (m m' : Memory) (low : Nat), Memory.wfFrom low m = true → Memory.wfFrom low m' = true →
    (∀ a, m.read a = m'.read a) → m = m' := by
  intro m
  induction m with
  | nil =>
    intro m' low _ h' hr
    cases m' with
    | nil => rfl
    | cons c m' =>
      obtain ⟨k, d⟩ := c
      simp only [Memory.wfFrom, Bool.and_eq_true, decide_eq_true_eq, bne_iff_ne] at h'
      have := hr k
      simp [Memory.read, Memory.lookup] at this
      exact absurd this.symm h'.1.2
  | cons c m ih =>
    obtain ⟨k, d⟩ := c
    intro m' low h h' hr
    have hw := h
    simp only [Memory.wfFrom, Bool.and_eq_true, decide_eq_true_eq, bne_iff_ne] at h
    cases m' with
    | nil =>
      have := hr k
      simp [Memory.read, Memory.lookup] at this
      exact absurd this h.1.2
    | cons c' m' =>
      obtain ⟨k', d'⟩ := c'
      have hw' := h'
      simp only [Memory.wfFrom, Bool.and_eq_true, decide_eq_true_eq, bne_iff_ne] at h'
      rcases Nat.lt_trichotomy k k' with hk | hk | hk
      · have := hr k
        have hn := lookup_below m' (k' + 1) k h'.2 (by omega)
        simp [Memory.read, Memory.lookup, hn, show ¬ k' = k by omega] at this
        exact absurd this h.1.2
      · subst hk
        have h0 := hr k
        simp [Memory.read, Memory.lookup] at h0
        subst h0
        congr 1
        refine ih m' (k + 1) h.2 h'.2 fun a => ?_
        by_cases ha : k = a
        · subst ha
          simp [Memory.read, lookup_below m (k + 1) k h.2 (by omega), lookup_below m' (k + 1) k h'.2 (by omega)]
        · have := hr a
          simpa [Memory.read, Memory.lookup, ha] using this
      · have := hr k'
        have hn := lookup_below m (k + 1) k' h.2 (by omega)
        simp [Memory.read, Memory.lookup, hn, show ¬ k = k' by omega] at this
        exact absurd this.symm h'.1.2

theorem Memory.wf_ext {m m' : Memory} (h : m.wf = true) (h' : m'.wf = true) (hr : ∀ a, m.read a = m'.read a) : m = m' :=
  wfFrom_ext m m' 0 h h' hr

end Sys2Proof.Machine
end

