-- ==== Sys2Proof/Laws/State.lean ====
section
/-! SUPPORT. What each update of the state does to each field: one lemma per update and field, true by unfolding. -/

namespace Sys2Proof.Machine

variable (s : State)

/-! `setReg` -/

@[simp] theorem State.setReg_v (x : Reg) (b : Byte) : (s.setReg x b).v = s.v.set x b := rfl
@[simp] theorem State.setReg_pc (x : Reg) (b : Byte) : (s.setReg x b).pc = s.pc := rfl
@[simp] theorem State.setReg_i (x : Reg) (b : Byte) : (s.setReg x b).i = s.i := rfl
@[simp] theorem State.setReg_dt (x : Reg) (b : Byte) : (s.setReg x b).dt = s.dt := rfl
@[simp] theorem State.setReg_st (x : Reg) (b : Byte) : (s.setReg x b).st = s.st := rfl
@[simp] theorem State.setReg_stack (x : Reg) (b : Byte) : (s.setReg x b).stack = s.stack := rfl
@[simp] theorem State.setReg_sp (x : Reg) (b : Byte) : (s.setReg x b).sp = s.sp := rfl
@[simp] theorem State.setReg_mem (x : Reg) (b : Byte) : (s.setReg x b).mem = s.mem := rfl
@[simp] theorem State.setReg_fb (x : Reg) (b : Byte) : (s.setReg x b).fb = s.fb := rfl
@[simp] theorem State.setReg_keys (x : Reg) (b : Byte) : (s.setReg x b).keys = s.keys := rfl
@[simp] theorem State.setReg_halted (x : Reg) (b : Byte) : (s.setReg x b).halted = s.halted := rfl
@[simp] theorem State.setReg_faultCause (x : Reg) (b : Byte) : (s.setReg x b).faultCause = s.faultCause := rfl
@[simp] theorem State.setReg_faultPc (x : Reg) (b : Byte) : (s.setReg x b).faultPc = s.faultPc := rfl
@[simp] theorem State.setReg_faultOp (x : Reg) (b : Byte) : (s.setReg x b).faultOp = s.faultOp := rfl
@[simp] theorem State.setReg_faultInfo (x : Reg) (b : Byte) : (s.setReg x b).faultInfo = s.faultInfo := rfl
@[simp] theorem State.setReg_presentCount (x : Reg) (b : Byte) : (s.setReg x b).presentCount = s.presentCount := rfl
@[simp] theorem State.setReg_randIndex (x : Reg) (b : Byte) : (s.setReg x b).randIndex = s.randIndex := rfl
@[simp] theorem State.setReg_schedule (x : Reg) (b : Byte) : (s.setReg x b).schedule = s.schedule := rfl
@[simp] theorem State.setReg_round (x : Reg) (b : Byte) : (s.setReg x b).round = s.round := rfl

/-! `setRegs` -/

@[simp] theorem State.setRegs_v (v : Vector Byte 16) : (s.setRegs v).v = v := rfl
@[simp] theorem State.setRegs_pc (v : Vector Byte 16) : (s.setRegs v).pc = s.pc := rfl
@[simp] theorem State.setRegs_i (v : Vector Byte 16) : (s.setRegs v).i = s.i := rfl
@[simp] theorem State.setRegs_dt (v : Vector Byte 16) : (s.setRegs v).dt = s.dt := rfl
@[simp] theorem State.setRegs_st (v : Vector Byte 16) : (s.setRegs v).st = s.st := rfl
@[simp] theorem State.setRegs_stack (v : Vector Byte 16) : (s.setRegs v).stack = s.stack := rfl
@[simp] theorem State.setRegs_sp (v : Vector Byte 16) : (s.setRegs v).sp = s.sp := rfl
@[simp] theorem State.setRegs_mem (v : Vector Byte 16) : (s.setRegs v).mem = s.mem := rfl
@[simp] theorem State.setRegs_fb (v : Vector Byte 16) : (s.setRegs v).fb = s.fb := rfl
@[simp] theorem State.setRegs_keys (v : Vector Byte 16) : (s.setRegs v).keys = s.keys := rfl
@[simp] theorem State.setRegs_halted (v : Vector Byte 16) : (s.setRegs v).halted = s.halted := rfl
@[simp] theorem State.setRegs_faultCause (v : Vector Byte 16) : (s.setRegs v).faultCause = s.faultCause := rfl
@[simp] theorem State.setRegs_faultPc (v : Vector Byte 16) : (s.setRegs v).faultPc = s.faultPc := rfl
@[simp] theorem State.setRegs_faultOp (v : Vector Byte 16) : (s.setRegs v).faultOp = s.faultOp := rfl
@[simp] theorem State.setRegs_faultInfo (v : Vector Byte 16) : (s.setRegs v).faultInfo = s.faultInfo := rfl
@[simp] theorem State.setRegs_presentCount (v : Vector Byte 16) : (s.setRegs v).presentCount = s.presentCount := rfl
@[simp] theorem State.setRegs_randIndex (v : Vector Byte 16) : (s.setRegs v).randIndex = s.randIndex := rfl
@[simp] theorem State.setRegs_schedule (v : Vector Byte 16) : (s.setRegs v).schedule = s.schedule := rfl
@[simp] theorem State.setRegs_round (v : Vector Byte 16) : (s.setRegs v).round = s.round := rfl

/-! `setPc` -/

@[simp] theorem State.setPc_v (w : Word) : (s.setPc w).v = s.v := rfl
@[simp] theorem State.setPc_pc (w : Word) : (s.setPc w).pc = w := rfl
@[simp] theorem State.setPc_i (w : Word) : (s.setPc w).i = s.i := rfl
@[simp] theorem State.setPc_dt (w : Word) : (s.setPc w).dt = s.dt := rfl
@[simp] theorem State.setPc_st (w : Word) : (s.setPc w).st = s.st := rfl
@[simp] theorem State.setPc_stack (w : Word) : (s.setPc w).stack = s.stack := rfl
@[simp] theorem State.setPc_sp (w : Word) : (s.setPc w).sp = s.sp := rfl
@[simp] theorem State.setPc_mem (w : Word) : (s.setPc w).mem = s.mem := rfl
@[simp] theorem State.setPc_fb (w : Word) : (s.setPc w).fb = s.fb := rfl
@[simp] theorem State.setPc_keys (w : Word) : (s.setPc w).keys = s.keys := rfl
@[simp] theorem State.setPc_halted (w : Word) : (s.setPc w).halted = s.halted := rfl
@[simp] theorem State.setPc_faultCause (w : Word) : (s.setPc w).faultCause = s.faultCause := rfl
@[simp] theorem State.setPc_faultPc (w : Word) : (s.setPc w).faultPc = s.faultPc := rfl
@[simp] theorem State.setPc_faultOp (w : Word) : (s.setPc w).faultOp = s.faultOp := rfl
@[simp] theorem State.setPc_faultInfo (w : Word) : (s.setPc w).faultInfo = s.faultInfo := rfl
@[simp] theorem State.setPc_presentCount (w : Word) : (s.setPc w).presentCount = s.presentCount := rfl
@[simp] theorem State.setPc_randIndex (w : Word) : (s.setPc w).randIndex = s.randIndex := rfl
@[simp] theorem State.setPc_schedule (w : Word) : (s.setPc w).schedule = s.schedule := rfl
@[simp] theorem State.setPc_round (w : Word) : (s.setPc w).round = s.round := rfl

/-! `setIndex` -/

@[simp] theorem State.setIndex_v (w : Word) : (s.setIndex w).v = s.v := rfl
@[simp] theorem State.setIndex_pc (w : Word) : (s.setIndex w).pc = s.pc := rfl
@[simp] theorem State.setIndex_i (w : Word) : (s.setIndex w).i = w := rfl
@[simp] theorem State.setIndex_dt (w : Word) : (s.setIndex w).dt = s.dt := rfl
@[simp] theorem State.setIndex_st (w : Word) : (s.setIndex w).st = s.st := rfl
@[simp] theorem State.setIndex_stack (w : Word) : (s.setIndex w).stack = s.stack := rfl
@[simp] theorem State.setIndex_sp (w : Word) : (s.setIndex w).sp = s.sp := rfl
@[simp] theorem State.setIndex_mem (w : Word) : (s.setIndex w).mem = s.mem := rfl
@[simp] theorem State.setIndex_fb (w : Word) : (s.setIndex w).fb = s.fb := rfl
@[simp] theorem State.setIndex_keys (w : Word) : (s.setIndex w).keys = s.keys := rfl
@[simp] theorem State.setIndex_halted (w : Word) : (s.setIndex w).halted = s.halted := rfl
@[simp] theorem State.setIndex_faultCause (w : Word) : (s.setIndex w).faultCause = s.faultCause := rfl
@[simp] theorem State.setIndex_faultPc (w : Word) : (s.setIndex w).faultPc = s.faultPc := rfl
@[simp] theorem State.setIndex_faultOp (w : Word) : (s.setIndex w).faultOp = s.faultOp := rfl
@[simp] theorem State.setIndex_faultInfo (w : Word) : (s.setIndex w).faultInfo = s.faultInfo := rfl
@[simp] theorem State.setIndex_presentCount (w : Word) : (s.setIndex w).presentCount = s.presentCount := rfl
@[simp] theorem State.setIndex_randIndex (w : Word) : (s.setIndex w).randIndex = s.randIndex := rfl
@[simp] theorem State.setIndex_schedule (w : Word) : (s.setIndex w).schedule = s.schedule := rfl
@[simp] theorem State.setIndex_round (w : Word) : (s.setIndex w).round = s.round := rfl

/-! `setDelay` -/

@[simp] theorem State.setDelay_v (b : Byte) : (s.setDelay b).v = s.v := rfl
@[simp] theorem State.setDelay_pc (b : Byte) : (s.setDelay b).pc = s.pc := rfl
@[simp] theorem State.setDelay_i (b : Byte) : (s.setDelay b).i = s.i := rfl
@[simp] theorem State.setDelay_dt (b : Byte) : (s.setDelay b).dt = b := rfl
@[simp] theorem State.setDelay_st (b : Byte) : (s.setDelay b).st = s.st := rfl
@[simp] theorem State.setDelay_stack (b : Byte) : (s.setDelay b).stack = s.stack := rfl
@[simp] theorem State.setDelay_sp (b : Byte) : (s.setDelay b).sp = s.sp := rfl
@[simp] theorem State.setDelay_mem (b : Byte) : (s.setDelay b).mem = s.mem := rfl
@[simp] theorem State.setDelay_fb (b : Byte) : (s.setDelay b).fb = s.fb := rfl
@[simp] theorem State.setDelay_keys (b : Byte) : (s.setDelay b).keys = s.keys := rfl
@[simp] theorem State.setDelay_halted (b : Byte) : (s.setDelay b).halted = s.halted := rfl
@[simp] theorem State.setDelay_faultCause (b : Byte) : (s.setDelay b).faultCause = s.faultCause := rfl
@[simp] theorem State.setDelay_faultPc (b : Byte) : (s.setDelay b).faultPc = s.faultPc := rfl
@[simp] theorem State.setDelay_faultOp (b : Byte) : (s.setDelay b).faultOp = s.faultOp := rfl
@[simp] theorem State.setDelay_faultInfo (b : Byte) : (s.setDelay b).faultInfo = s.faultInfo := rfl
@[simp] theorem State.setDelay_presentCount (b : Byte) : (s.setDelay b).presentCount = s.presentCount := rfl
@[simp] theorem State.setDelay_randIndex (b : Byte) : (s.setDelay b).randIndex = s.randIndex := rfl
@[simp] theorem State.setDelay_schedule (b : Byte) : (s.setDelay b).schedule = s.schedule := rfl
@[simp] theorem State.setDelay_round (b : Byte) : (s.setDelay b).round = s.round := rfl

/-! `setSound` -/

@[simp] theorem State.setSound_v (b : Byte) : (s.setSound b).v = s.v := rfl
@[simp] theorem State.setSound_pc (b : Byte) : (s.setSound b).pc = s.pc := rfl
@[simp] theorem State.setSound_i (b : Byte) : (s.setSound b).i = s.i := rfl
@[simp] theorem State.setSound_dt (b : Byte) : (s.setSound b).dt = s.dt := rfl
@[simp] theorem State.setSound_st (b : Byte) : (s.setSound b).st = b := rfl
@[simp] theorem State.setSound_stack (b : Byte) : (s.setSound b).stack = s.stack := rfl
@[simp] theorem State.setSound_sp (b : Byte) : (s.setSound b).sp = s.sp := rfl
@[simp] theorem State.setSound_mem (b : Byte) : (s.setSound b).mem = s.mem := rfl
@[simp] theorem State.setSound_fb (b : Byte) : (s.setSound b).fb = s.fb := rfl
@[simp] theorem State.setSound_keys (b : Byte) : (s.setSound b).keys = s.keys := rfl
@[simp] theorem State.setSound_halted (b : Byte) : (s.setSound b).halted = s.halted := rfl
@[simp] theorem State.setSound_faultCause (b : Byte) : (s.setSound b).faultCause = s.faultCause := rfl
@[simp] theorem State.setSound_faultPc (b : Byte) : (s.setSound b).faultPc = s.faultPc := rfl
@[simp] theorem State.setSound_faultOp (b : Byte) : (s.setSound b).faultOp = s.faultOp := rfl
@[simp] theorem State.setSound_faultInfo (b : Byte) : (s.setSound b).faultInfo = s.faultInfo := rfl
@[simp] theorem State.setSound_presentCount (b : Byte) : (s.setSound b).presentCount = s.presentCount := rfl
@[simp] theorem State.setSound_randIndex (b : Byte) : (s.setSound b).randIndex = s.randIndex := rfl
@[simp] theorem State.setSound_schedule (b : Byte) : (s.setSound b).schedule = s.schedule := rfl
@[simp] theorem State.setSound_round (b : Byte) : (s.setSound b).round = s.round := rfl

/-! `setMem` -/

@[simp] theorem State.setMem_v (m : Memory) : (s.setMem m).v = s.v := rfl
@[simp] theorem State.setMem_pc (m : Memory) : (s.setMem m).pc = s.pc := rfl
@[simp] theorem State.setMem_i (m : Memory) : (s.setMem m).i = s.i := rfl
@[simp] theorem State.setMem_dt (m : Memory) : (s.setMem m).dt = s.dt := rfl
@[simp] theorem State.setMem_st (m : Memory) : (s.setMem m).st = s.st := rfl
@[simp] theorem State.setMem_stack (m : Memory) : (s.setMem m).stack = s.stack := rfl
@[simp] theorem State.setMem_sp (m : Memory) : (s.setMem m).sp = s.sp := rfl
@[simp] theorem State.setMem_mem (m : Memory) : (s.setMem m).mem = m := rfl
@[simp] theorem State.setMem_fb (m : Memory) : (s.setMem m).fb = s.fb := rfl
@[simp] theorem State.setMem_keys (m : Memory) : (s.setMem m).keys = s.keys := rfl
@[simp] theorem State.setMem_halted (m : Memory) : (s.setMem m).halted = s.halted := rfl
@[simp] theorem State.setMem_faultCause (m : Memory) : (s.setMem m).faultCause = s.faultCause := rfl
@[simp] theorem State.setMem_faultPc (m : Memory) : (s.setMem m).faultPc = s.faultPc := rfl
@[simp] theorem State.setMem_faultOp (m : Memory) : (s.setMem m).faultOp = s.faultOp := rfl
@[simp] theorem State.setMem_faultInfo (m : Memory) : (s.setMem m).faultInfo = s.faultInfo := rfl
@[simp] theorem State.setMem_presentCount (m : Memory) : (s.setMem m).presentCount = s.presentCount := rfl
@[simp] theorem State.setMem_randIndex (m : Memory) : (s.setMem m).randIndex = s.randIndex := rfl
@[simp] theorem State.setMem_schedule (m : Memory) : (s.setMem m).schedule = s.schedule := rfl
@[simp] theorem State.setMem_round (m : Memory) : (s.setMem m).round = s.round := rfl

/-! `setSurface` -/

@[simp] theorem State.setSurface_v (f : Framebuffer) : (s.setSurface f).v = s.v := rfl
@[simp] theorem State.setSurface_pc (f : Framebuffer) : (s.setSurface f).pc = s.pc := rfl
@[simp] theorem State.setSurface_i (f : Framebuffer) : (s.setSurface f).i = s.i := rfl
@[simp] theorem State.setSurface_dt (f : Framebuffer) : (s.setSurface f).dt = s.dt := rfl
@[simp] theorem State.setSurface_st (f : Framebuffer) : (s.setSurface f).st = s.st := rfl
@[simp] theorem State.setSurface_stack (f : Framebuffer) : (s.setSurface f).stack = s.stack := rfl
@[simp] theorem State.setSurface_sp (f : Framebuffer) : (s.setSurface f).sp = s.sp := rfl
@[simp] theorem State.setSurface_mem (f : Framebuffer) : (s.setSurface f).mem = s.mem := rfl
@[simp] theorem State.setSurface_fb (f : Framebuffer) : (s.setSurface f).fb = f := rfl
@[simp] theorem State.setSurface_keys (f : Framebuffer) : (s.setSurface f).keys = s.keys := rfl
@[simp] theorem State.setSurface_halted (f : Framebuffer) : (s.setSurface f).halted = s.halted := rfl
@[simp] theorem State.setSurface_faultCause (f : Framebuffer) : (s.setSurface f).faultCause = s.faultCause := rfl
@[simp] theorem State.setSurface_faultPc (f : Framebuffer) : (s.setSurface f).faultPc = s.faultPc := rfl
@[simp] theorem State.setSurface_faultOp (f : Framebuffer) : (s.setSurface f).faultOp = s.faultOp := rfl
@[simp] theorem State.setSurface_faultInfo (f : Framebuffer) : (s.setSurface f).faultInfo = s.faultInfo := rfl
@[simp] theorem State.setSurface_presentCount (f : Framebuffer) : (s.setSurface f).presentCount = s.presentCount := rfl
@[simp] theorem State.setSurface_randIndex (f : Framebuffer) : (s.setSurface f).randIndex = s.randIndex := rfl
@[simp] theorem State.setSurface_schedule (f : Framebuffer) : (s.setSurface f).schedule = s.schedule := rfl
@[simp] theorem State.setSurface_round (f : Framebuffer) : (s.setSurface f).round = s.round := rfl

/-! `setKeyFlags` -/

@[simp] theorem State.setKeyFlags_v (k : Word) : (s.setKeyFlags k).v = s.v := rfl
@[simp] theorem State.setKeyFlags_pc (k : Word) : (s.setKeyFlags k).pc = s.pc := rfl
@[simp] theorem State.setKeyFlags_i (k : Word) : (s.setKeyFlags k).i = s.i := rfl
@[simp] theorem State.setKeyFlags_dt (k : Word) : (s.setKeyFlags k).dt = s.dt := rfl
@[simp] theorem State.setKeyFlags_st (k : Word) : (s.setKeyFlags k).st = s.st := rfl
@[simp] theorem State.setKeyFlags_stack (k : Word) : (s.setKeyFlags k).stack = s.stack := rfl
@[simp] theorem State.setKeyFlags_sp (k : Word) : (s.setKeyFlags k).sp = s.sp := rfl
@[simp] theorem State.setKeyFlags_mem (k : Word) : (s.setKeyFlags k).mem = s.mem := rfl
@[simp] theorem State.setKeyFlags_fb (k : Word) : (s.setKeyFlags k).fb = s.fb := rfl
@[simp] theorem State.setKeyFlags_keys (k : Word) : (s.setKeyFlags k).keys = k := rfl
@[simp] theorem State.setKeyFlags_halted (k : Word) : (s.setKeyFlags k).halted = s.halted := rfl
@[simp] theorem State.setKeyFlags_faultCause (k : Word) : (s.setKeyFlags k).faultCause = s.faultCause := rfl
@[simp] theorem State.setKeyFlags_faultPc (k : Word) : (s.setKeyFlags k).faultPc = s.faultPc := rfl
@[simp] theorem State.setKeyFlags_faultOp (k : Word) : (s.setKeyFlags k).faultOp = s.faultOp := rfl
@[simp] theorem State.setKeyFlags_faultInfo (k : Word) : (s.setKeyFlags k).faultInfo = s.faultInfo := rfl
@[simp] theorem State.setKeyFlags_presentCount (k : Word) : (s.setKeyFlags k).presentCount = s.presentCount := rfl
@[simp] theorem State.setKeyFlags_randIndex (k : Word) : (s.setKeyFlags k).randIndex = s.randIndex := rfl
@[simp] theorem State.setKeyFlags_schedule (k : Word) : (s.setKeyFlags k).schedule = s.schedule := rfl
@[simp] theorem State.setKeyFlags_round (k : Word) : (s.setKeyFlags k).round = s.round := rfl

/-! `present` -/

@[simp] theorem State.present_v : (s.present).v = s.v := rfl
@[simp] theorem State.present_pc : (s.present).pc = s.pc := rfl
@[simp] theorem State.present_i : (s.present).i = s.i := rfl
@[simp] theorem State.present_dt : (s.present).dt = s.dt := rfl
@[simp] theorem State.present_st : (s.present).st = s.st := rfl
@[simp] theorem State.present_stack : (s.present).stack = s.stack := rfl
@[simp] theorem State.present_sp : (s.present).sp = s.sp := rfl
@[simp] theorem State.present_mem : (s.present).mem = s.mem := rfl
@[simp] theorem State.present_fb : (s.present).fb = s.fb := rfl
@[simp] theorem State.present_keys : (s.present).keys = s.keys := rfl
@[simp] theorem State.present_halted : (s.present).halted = s.halted := rfl
@[simp] theorem State.present_faultCause : (s.present).faultCause = s.faultCause := rfl
@[simp] theorem State.present_faultPc : (s.present).faultPc = s.faultPc := rfl
@[simp] theorem State.present_faultOp : (s.present).faultOp = s.faultOp := rfl
@[simp] theorem State.present_faultInfo : (s.present).faultInfo = s.faultInfo := rfl
@[simp] theorem State.present_presentCount : (s.present).presentCount = s.presentCount + 1 := rfl
@[simp] theorem State.present_randIndex : (s.present).randIndex = s.randIndex := rfl
@[simp] theorem State.present_schedule : (s.present).schedule = s.schedule := rfl
@[simp] theorem State.present_round : (s.present).round = s.round := rfl

/-! `drawRandom` -/

@[simp] theorem State.drawRandom_v : (s.drawRandom).v = s.v := rfl
@[simp] theorem State.drawRandom_pc : (s.drawRandom).pc = s.pc := rfl
@[simp] theorem State.drawRandom_i : (s.drawRandom).i = s.i := rfl
@[simp] theorem State.drawRandom_dt : (s.drawRandom).dt = s.dt := rfl
@[simp] theorem State.drawRandom_st : (s.drawRandom).st = s.st := rfl
@[simp] theorem State.drawRandom_stack : (s.drawRandom).stack = s.stack := rfl
@[simp] theorem State.drawRandom_sp : (s.drawRandom).sp = s.sp := rfl
@[simp] theorem State.drawRandom_mem : (s.drawRandom).mem = s.mem := rfl
@[simp] theorem State.drawRandom_fb : (s.drawRandom).fb = s.fb := rfl
@[simp] theorem State.drawRandom_keys : (s.drawRandom).keys = s.keys := rfl
@[simp] theorem State.drawRandom_halted : (s.drawRandom).halted = s.halted := rfl
@[simp] theorem State.drawRandom_faultCause : (s.drawRandom).faultCause = s.faultCause := rfl
@[simp] theorem State.drawRandom_faultPc : (s.drawRandom).faultPc = s.faultPc := rfl
@[simp] theorem State.drawRandom_faultOp : (s.drawRandom).faultOp = s.faultOp := rfl
@[simp] theorem State.drawRandom_faultInfo : (s.drawRandom).faultInfo = s.faultInfo := rfl
@[simp] theorem State.drawRandom_presentCount : (s.drawRandom).presentCount = s.presentCount := rfl
@[simp] theorem State.drawRandom_randIndex : (s.drawRandom).randIndex = s.randIndex + 1 := rfl
@[simp] theorem State.drawRandom_schedule : (s.drawRandom).schedule = s.schedule := rfl
@[simp] theorem State.drawRandom_round : (s.drawRandom).round = s.round := rfl

/-! `advance` -/

@[simp] theorem State.advance_v : (s.advance).v = s.v := rfl
@[simp] theorem State.advance_pc : (s.advance).pc = s.pc + 2#16 := rfl
@[simp] theorem State.advance_i : (s.advance).i = s.i := rfl
@[simp] theorem State.advance_dt : (s.advance).dt = s.dt := rfl
@[simp] theorem State.advance_st : (s.advance).st = s.st := rfl
@[simp] theorem State.advance_stack : (s.advance).stack = s.stack := rfl
@[simp] theorem State.advance_sp : (s.advance).sp = s.sp := rfl
@[simp] theorem State.advance_mem : (s.advance).mem = s.mem := rfl
@[simp] theorem State.advance_fb : (s.advance).fb = s.fb := rfl
@[simp] theorem State.advance_keys : (s.advance).keys = s.keys := rfl
@[simp] theorem State.advance_halted : (s.advance).halted = s.halted := rfl
@[simp] theorem State.advance_faultCause : (s.advance).faultCause = s.faultCause := rfl
@[simp] theorem State.advance_faultPc : (s.advance).faultPc = s.faultPc := rfl
@[simp] theorem State.advance_faultOp : (s.advance).faultOp = s.faultOp := rfl
@[simp] theorem State.advance_faultInfo : (s.advance).faultInfo = s.faultInfo := rfl
@[simp] theorem State.advance_presentCount : (s.advance).presentCount = s.presentCount := rfl
@[simp] theorem State.advance_randIndex : (s.advance).randIndex = s.randIndex := rfl
@[simp] theorem State.advance_schedule : (s.advance).schedule = s.schedule := rfl
@[simp] theorem State.advance_round : (s.advance).round = s.round := rfl

/-! `skipIf` -/

@[simp] theorem State.skipIf_v (c : Bool) : (s.skipIf c).v = s.v := rfl
@[simp] theorem State.skipIf_pc (c : Bool) : (s.skipIf c).pc = if c then s.pc + 4#16 else s.pc + 2#16 := rfl
@[simp] theorem State.skipIf_i (c : Bool) : (s.skipIf c).i = s.i := rfl
@[simp] theorem State.skipIf_dt (c : Bool) : (s.skipIf c).dt = s.dt := rfl
@[simp] theorem State.skipIf_st (c : Bool) : (s.skipIf c).st = s.st := rfl
@[simp] theorem State.skipIf_stack (c : Bool) : (s.skipIf c).stack = s.stack := rfl
@[simp] theorem State.skipIf_sp (c : Bool) : (s.skipIf c).sp = s.sp := rfl
@[simp] theorem State.skipIf_mem (c : Bool) : (s.skipIf c).mem = s.mem := rfl
@[simp] theorem State.skipIf_fb (c : Bool) : (s.skipIf c).fb = s.fb := rfl
@[simp] theorem State.skipIf_keys (c : Bool) : (s.skipIf c).keys = s.keys := rfl
@[simp] theorem State.skipIf_halted (c : Bool) : (s.skipIf c).halted = s.halted := rfl
@[simp] theorem State.skipIf_faultCause (c : Bool) : (s.skipIf c).faultCause = s.faultCause := rfl
@[simp] theorem State.skipIf_faultPc (c : Bool) : (s.skipIf c).faultPc = s.faultPc := rfl
@[simp] theorem State.skipIf_faultOp (c : Bool) : (s.skipIf c).faultOp = s.faultOp := rfl
@[simp] theorem State.skipIf_faultInfo (c : Bool) : (s.skipIf c).faultInfo = s.faultInfo := rfl
@[simp] theorem State.skipIf_presentCount (c : Bool) : (s.skipIf c).presentCount = s.presentCount := rfl
@[simp] theorem State.skipIf_randIndex (c : Bool) : (s.skipIf c).randIndex = s.randIndex := rfl
@[simp] theorem State.skipIf_schedule (c : Bool) : (s.skipIf c).schedule = s.schedule := rfl
@[simp] theorem State.skipIf_round (c : Bool) : (s.skipIf c).round = s.round := rfl

/-! `setFlag` -/

@[simp] theorem State.setFlag_v (f : Bool) : (s.setFlag f).v = s.v.set Reg.vf (flagByte f) := rfl
@[simp] theorem State.setFlag_pc (f : Bool) : (s.setFlag f).pc = s.pc := rfl
@[simp] theorem State.setFlag_i (f : Bool) : (s.setFlag f).i = s.i := rfl
@[simp] theorem State.setFlag_dt (f : Bool) : (s.setFlag f).dt = s.dt := rfl
@[simp] theorem State.setFlag_st (f : Bool) : (s.setFlag f).st = s.st := rfl
@[simp] theorem State.setFlag_stack (f : Bool) : (s.setFlag f).stack = s.stack := rfl
@[simp] theorem State.setFlag_sp (f : Bool) : (s.setFlag f).sp = s.sp := rfl
@[simp] theorem State.setFlag_mem (f : Bool) : (s.setFlag f).mem = s.mem := rfl
@[simp] theorem State.setFlag_fb (f : Bool) : (s.setFlag f).fb = s.fb := rfl
@[simp] theorem State.setFlag_keys (f : Bool) : (s.setFlag f).keys = s.keys := rfl
@[simp] theorem State.setFlag_halted (f : Bool) : (s.setFlag f).halted = s.halted := rfl
@[simp] theorem State.setFlag_faultCause (f : Bool) : (s.setFlag f).faultCause = s.faultCause := rfl
@[simp] theorem State.setFlag_faultPc (f : Bool) : (s.setFlag f).faultPc = s.faultPc := rfl
@[simp] theorem State.setFlag_faultOp (f : Bool) : (s.setFlag f).faultOp = s.faultOp := rfl
@[simp] theorem State.setFlag_faultInfo (f : Bool) : (s.setFlag f).faultInfo = s.faultInfo := rfl
@[simp] theorem State.setFlag_presentCount (f : Bool) : (s.setFlag f).presentCount = s.presentCount := rfl
@[simp] theorem State.setFlag_randIndex (f : Bool) : (s.setFlag f).randIndex = s.randIndex := rfl
@[simp] theorem State.setFlag_schedule (f : Bool) : (s.setFlag f).schedule = s.schedule := rfl
@[simp] theorem State.setFlag_round (f : Bool) : (s.setFlag f).round = s.round := rfl

/-! `setResultThenFlag` -/

@[simp] theorem State.setResultThenFlag_v (x : Reg) (b : Byte) (f : Bool) : (s.setResultThenFlag x b f).v = (s.v.set x b).set Reg.vf (flagByte f) := rfl
@[simp] theorem State.setResultThenFlag_pc (x : Reg) (b : Byte) (f : Bool) : (s.setResultThenFlag x b f).pc = s.pc := rfl
@[simp] theorem State.setResultThenFlag_i (x : Reg) (b : Byte) (f : Bool) : (s.setResultThenFlag x b f).i = s.i := rfl
@[simp] theorem State.setResultThenFlag_dt (x : Reg) (b : Byte) (f : Bool) : (s.setResultThenFlag x b f).dt = s.dt := rfl
@[simp] theorem State.setResultThenFlag_st (x : Reg) (b : Byte) (f : Bool) : (s.setResultThenFlag x b f).st = s.st := rfl
@[simp] theorem State.setResultThenFlag_stack (x : Reg) (b : Byte) (f : Bool) : (s.setResultThenFlag x b f).stack = s.stack := rfl
@[simp] theorem State.setResultThenFlag_sp (x : Reg) (b : Byte) (f : Bool) : (s.setResultThenFlag x b f).sp = s.sp := rfl
@[simp] theorem State.setResultThenFlag_mem (x : Reg) (b : Byte) (f : Bool) : (s.setResultThenFlag x b f).mem = s.mem := rfl
@[simp] theorem State.setResultThenFlag_fb (x : Reg) (b : Byte) (f : Bool) : (s.setResultThenFlag x b f).fb = s.fb := rfl
@[simp] theorem State.setResultThenFlag_keys (x : Reg) (b : Byte) (f : Bool) : (s.setResultThenFlag x b f).keys = s.keys := rfl
@[simp] theorem State.setResultThenFlag_halted (x : Reg) (b : Byte) (f : Bool) : (s.setResultThenFlag x b f).halted = s.halted := rfl
@[simp] theorem State.setResultThenFlag_faultCause (x : Reg) (b : Byte) (f : Bool) : (s.setResultThenFlag x b f).faultCause = s.faultCause := rfl
@[simp] theorem State.setResultThenFlag_faultPc (x : Reg) (b : Byte) (f : Bool) : (s.setResultThenFlag x b f).faultPc = s.faultPc := rfl
@[simp] theorem State.setResultThenFlag_faultOp (x : Reg) (b : Byte) (f : Bool) : (s.setResultThenFlag x b f).faultOp = s.faultOp := rfl
@[simp] theorem State.setResultThenFlag_faultInfo (x : Reg) (b : Byte) (f : Bool) : (s.setResultThenFlag x b f).faultInfo = s.faultInfo := rfl
@[simp] theorem State.setResultThenFlag_presentCount (x : Reg) (b : Byte) (f : Bool) : (s.setResultThenFlag x b f).presentCount = s.presentCount := rfl
@[simp] theorem State.setResultThenFlag_randIndex (x : Reg) (b : Byte) (f : Bool) : (s.setResultThenFlag x b f).randIndex = s.randIndex := rfl
@[simp] theorem State.setResultThenFlag_schedule (x : Reg) (b : Byte) (f : Bool) : (s.setResultThenFlag x b f).schedule = s.schedule := rfl
@[simp] theorem State.setResultThenFlag_round (x : Reg) (b : Byte) (f : Bool) : (s.setResultThenFlag x b f).round = s.round := rfl

/-! `raise` -/

@[simp] theorem State.raise_v (c : FaultCause) (op info : Word) : (s.raise c op info).v = s.v := rfl
@[simp] theorem State.raise_pc (c : FaultCause) (op info : Word) : (s.raise c op info).pc = s.pc := rfl
@[simp] theorem State.raise_i (c : FaultCause) (op info : Word) : (s.raise c op info).i = s.i := rfl
@[simp] theorem State.raise_dt (c : FaultCause) (op info : Word) : (s.raise c op info).dt = s.dt := rfl
@[simp] theorem State.raise_st (c : FaultCause) (op info : Word) : (s.raise c op info).st = s.st := rfl
@[simp] theorem State.raise_stack (c : FaultCause) (op info : Word) : (s.raise c op info).stack = s.stack := rfl
@[simp] theorem State.raise_sp (c : FaultCause) (op info : Word) : (s.raise c op info).sp = s.sp := rfl
@[simp] theorem State.raise_mem (c : FaultCause) (op info : Word) : (s.raise c op info).mem = s.mem := rfl
@[simp] theorem State.raise_fb (c : FaultCause) (op info : Word) : (s.raise c op info).fb = s.fb := rfl
@[simp] theorem State.raise_keys (c : FaultCause) (op info : Word) : (s.raise c op info).keys = s.keys := rfl
@[simp] theorem State.raise_halted (c : FaultCause) (op info : Word) : (s.raise c op info).halted = true := rfl
@[simp] theorem State.raise_faultCause (c : FaultCause) (op info : Word) : (s.raise c op info).faultCause = c := rfl
@[simp] theorem State.raise_faultPc (c : FaultCause) (op info : Word) : (s.raise c op info).faultPc = s.pc := rfl
@[simp] theorem State.raise_faultOp (c : FaultCause) (op info : Word) : (s.raise c op info).faultOp = op := rfl
@[simp] theorem State.raise_faultInfo (c : FaultCause) (op info : Word) : (s.raise c op info).faultInfo = info := rfl
@[simp] theorem State.raise_presentCount (c : FaultCause) (op info : Word) : (s.raise c op info).presentCount = s.presentCount := rfl
@[simp] theorem State.raise_randIndex (c : FaultCause) (op info : Word) : (s.raise c op info).randIndex = s.randIndex := rfl
@[simp] theorem State.raise_schedule (c : FaultCause) (op info : Word) : (s.raise c op info).schedule = s.schedule := rfl
@[simp] theorem State.raise_round (c : FaultCause) (op info : Word) : (s.raise c op info).round = s.round := rfl

/-! `raiseRange` -/

@[simp] theorem State.raiseRange_v (op : Word) : (s.raiseRange op).v = s.v := rfl
@[simp] theorem State.raiseRange_pc (op : Word) : (s.raiseRange op).pc = s.pc := rfl
@[simp] theorem State.raiseRange_i (op : Word) : (s.raiseRange op).i = s.i := rfl
@[simp] theorem State.raiseRange_dt (op : Word) : (s.raiseRange op).dt = s.dt := rfl
@[simp] theorem State.raiseRange_st (op : Word) : (s.raiseRange op).st = s.st := rfl
@[simp] theorem State.raiseRange_stack (op : Word) : (s.raiseRange op).stack = s.stack := rfl
@[simp] theorem State.raiseRange_sp (op : Word) : (s.raiseRange op).sp = s.sp := rfl
@[simp] theorem State.raiseRange_mem (op : Word) : (s.raiseRange op).mem = s.mem := rfl
@[simp] theorem State.raiseRange_fb (op : Word) : (s.raiseRange op).fb = s.fb := rfl
@[simp] theorem State.raiseRange_keys (op : Word) : (s.raiseRange op).keys = s.keys := rfl
@[simp] theorem State.raiseRange_halted (op : Word) : (s.raiseRange op).halted = true := rfl
@[simp] theorem State.raiseRange_faultCause (op : Word) : (s.raiseRange op).faultCause = .memOutOfRange := rfl
@[simp] theorem State.raiseRange_faultPc (op : Word) : (s.raiseRange op).faultPc = s.pc := rfl
@[simp] theorem State.raiseRange_faultOp (op : Word) : (s.raiseRange op).faultOp = op := rfl
@[simp] theorem State.raiseRange_faultInfo (op : Word) : (s.raiseRange op).faultInfo = 0x1000#16 := rfl
@[simp] theorem State.raiseRange_presentCount (op : Word) : (s.raiseRange op).presentCount = s.presentCount := rfl
@[simp] theorem State.raiseRange_randIndex (op : Word) : (s.raiseRange op).randIndex = s.randIndex := rfl
@[simp] theorem State.raiseRange_schedule (op : Word) : (s.raiseRange op).schedule = s.schedule := rfl
@[simp] theorem State.raiseRange_round (op : Word) : (s.raiseRange op).round = s.round := rfl

/-! `afterTurn` -/

@[simp] theorem State.afterTurn_v : (s.afterTurn).v = s.v := rfl
@[simp] theorem State.afterTurn_pc : (s.afterTurn).pc = s.pc := rfl
@[simp] theorem State.afterTurn_i : (s.afterTurn).i = s.i := rfl
@[simp] theorem State.afterTurn_dt : (s.afterTurn).dt = s.dt := rfl
@[simp] theorem State.afterTurn_st : (s.afterTurn).st = s.st := rfl
@[simp] theorem State.afterTurn_stack : (s.afterTurn).stack = s.stack := rfl
@[simp] theorem State.afterTurn_sp : (s.afterTurn).sp = s.sp := rfl
@[simp] theorem State.afterTurn_mem : (s.afterTurn).mem = s.mem := rfl
@[simp] theorem State.afterTurn_fb : (s.afterTurn).fb = s.fb := rfl
@[simp] theorem State.afterTurn_keys : (s.afterTurn).keys = s.keys := rfl
@[simp] theorem State.afterTurn_halted : (s.afterTurn).halted = s.halted := rfl
@[simp] theorem State.afterTurn_faultCause : (s.afterTurn).faultCause = s.faultCause := rfl
@[simp] theorem State.afterTurn_faultPc : (s.afterTurn).faultPc = s.faultPc := rfl
@[simp] theorem State.afterTurn_faultOp : (s.afterTurn).faultOp = s.faultOp := rfl
@[simp] theorem State.afterTurn_faultInfo : (s.afterTurn).faultInfo = s.faultInfo := rfl
@[simp] theorem State.afterTurn_presentCount : (s.afterTurn).presentCount = s.presentCount := rfl
@[simp] theorem State.afterTurn_randIndex : (s.afterTurn).randIndex = s.randIndex := rfl
@[simp] theorem State.afterTurn_schedule : (s.afterTurn).schedule = s.coming.tail := rfl
@[simp] theorem State.afterTurn_round : (s.afterTurn).round = if s.schedule.isEmpty then s.round + 1 else s.round := rfl

end Sys2Proof.Machine
end

