-- ==== Sys2Proof/Laws/Ops.lean ====
section
/-! SUPPORT. One lemma per shared operation: what it answers and when. -/

namespace Sys2Proof.Machine

variable (s : State)

/-! ### Range check and fetch -/

theorem outOfRange_iff (base count : Nat) : outOfRange base count = true ↔ count ≠ 0 ∧ 4096 < base + count := by
  simp [outOfRange]

theorem outOfRange_eq_false (base count : Nat) : outOfRange base count = false ↔ count = 0 ∨ base + count ≤ 4096 := by
  rw [← Bool.not_eq_true, outOfRange_iff]; omega

theorem State.fetch_ok (h : s.pc.toNat ≤ 0xFFE) :
    s.fetch = .ok (wordOfBytes (s.mem.read s.pc.toNat) (s.mem.read (s.pc.toNat + 1))) := by
  unfold State.fetch
  rw [(outOfRange_eq_false _ _).2 (by omega)]; rfl

theorem State.fetch_error (h : 0xFFF ≤ s.pc.toNat) :
    s.fetch = .error (if s.pc.toNat > 0xFFF then s.pc else 0x1000#16) := by
  unfold State.fetch
  rw [(outOfRange_iff _ _).2 (by omega)]; rfl

/-! ### Registers -/

theorem State.reg_setReg (x x' : Reg) (b : Byte) : (s.setReg x b).reg x' = if x' = x then b else s.reg x' := by
  simp only [State.reg, State.setReg, Fin.getElem_fin, Vector.getElem_set, Fin.ext_iff, eq_comm]

theorem State.reg_setResultThenFlag (x x' : Reg) (b : Byte) (f : Bool) :
    (s.setResultThenFlag x b f).reg x' = if x' = Reg.vf then flagByte f else if x' = x then b else s.reg x' := by
  simp only [State.setResultThenFlag, State.setFlag, State.reg_setReg]

/-- A register is loaded exactly when its number is below the count (R165). -/
theorem loadRegs_getElem (m : Memory) (base : Nat) (v : Vector Byte 16) (j : Fin 16) :
    ∀ n, (loadRegs m base n v)[j] = if j.val < n then m.read (base + j.val) else v[j] := by
  intro n
  induction n with
  | zero => simp [loadRegs]
  | succ n ih =>
    simp only [Fin.getElem_fin] at ih ⊢
    simp only [loadRegs, Vector.getElem_setIfInBounds, ih]
    rcases Nat.lt_trichotomy n j.val with h | h | h
    · rw [if_neg (by omega), if_neg (by omega), if_neg (by omega)]
    · rw [if_pos h, if_pos (by omega), h]
    · rw [if_neg (by omega), if_pos (by omega), if_pos (by omega)]

theorem State.regsUpTo_length (x : Reg) : (s.regsUpTo x).length = x.val + 1 := by
  simp [State.regsUpTo]

theorem State.regsUpTo_getD (x : Reg) (k : Nat) (h : k ≤ x.val) :
    (s.regsUpTo x).getD k 0#8 = s.v[k]'(by omega) := by
  have hx := x.isLt
  simp [State.regsUpTo, List.getD_eq_getElem?_getD, Nat.lt_succ_of_le h]

/-! ### Call stack -/

/-- A push onto a stack with room: the entry at `SP` is written and `SP` rises by one (R30). -/
theorem State.push_some (k : Fin 16) (h : s.sp = k.castSucc) (w : Word) :
    s.push w = some { s with stack := s.stack.set k w, sp := k.succ } := by
  have hk : s.sp.val < Config.stackDepth := by rw [h]; exact k.isLt
  unfold State.push
  rw [dif_pos hk]
  have hv : s.sp.val = k.val := by rw [h]; rfl
  simp only [hv]
  rfl

theorem State.push_none (h : s.sp = 16) (w : Word) : s.push w = none := by
  unfold State.push
  rw [dif_neg (by rw [h]; decide)]

/-- A pop from a stack with an entry: the newest entry, and `SP` falls by one (R30). -/
theorem State.pop_some (k : Fin 16) (h : s.sp = k.succ) :
    s.pop = some (s.stack[k], { s with sp := k.castSucc }) := by
  have hv : s.sp.val = k.val + 1 := by rw [h]; rfl
  unfold State.pop
  rw [dif_pos (by omega)]
  simp only [hv, Nat.add_sub_cancel]
  rfl

theorem State.pop_none (h : s.sp = 0) : s.pop = none := by
  unfold State.pop
  rw [dif_neg (by rw [h]; decide)]

/-- The stack pointer is 16 or the number of a free entry. -/
theorem State.sp_full_or_room : s.sp = 16 ∨ ∃ k : Fin 16, s.sp = k.castSucc := by
  by_cases h : s.sp.val < 16
  · exact .inr ⟨⟨s.sp.val, h⟩, rfl⟩
  · exact .inl (Fin.ext (by have := s.sp.isLt; simp; omega))

/-- The stack pointer is 0 or one above a used entry. -/
theorem State.sp_empty_or_used : s.sp = 0 ∨ ∃ k : Fin 16, s.sp = k.succ := by
  by_cases h : s.sp.val = 0
  · exact .inl (Fin.ext h)
  · exact .inr ⟨⟨s.sp.val - 1, by have := s.sp.isLt; omega⟩, Fin.ext (by simp; omega)⟩

/-! ### Timers and keys -/

/-- A decrement clamped at zero (R230). -/
theorem countDown_toNat (b : Byte) : (countDown b).toNat = b.toNat - 1 := by
  unfold countDown
  split
  · next h => subst h; rfl
  · next h =>
    have : b.toNat ≠ 0 := fun hc => h (BitVec.eq_of_toNat_eq hc)
    have := b.isLt
    rw [BitVec.toNat_sub_of_le (by rw [BitVec.le_def]; simp; omega)]
    rfl

/-- The key found is pressed and none below it is (R193). -/
theorem lowestKey_some {k : Word} {j : Nat} (h : lowestKey k = some j) :
    j < 16 ∧ k.getLsbD j = true ∧ ∀ j' < j, k.getLsbD j' = false := by
  unfold lowestKey at h
  rw [List.find?_range_eq_some] at h
  obtain ⟨h1, h2, h3⟩ := h
  refine ⟨by simpa using h2, h1, fun j' hj' => by simpa using h3 j' hj'⟩

theorem lowestKey_none {k : Word} (h : lowestKey k = none) : k = 0#16 := by
  unfold lowestKey at h
  rw [List.find?_range_eq_none] at h
  apply BitVec.eq_of_getLsbD_eq
  intro j hj
  simpa using h j hj

theorem lowestKey_zero : lowestKey 0#16 = none := by decide

/-! ### Faults -/

/-- What taking a fault changes, all of it (R221). -/
theorem State.raise_eq (c : FaultCause) (op info : Word) :
    s.raise c op info =
      { s with halted := true, faultCause := c, faultPc := s.pc, faultOp := op, faultInfo := info } := rfl

theorem FaultCause.code_injective : ∀ c c' : FaultCause, c.code = c'.code → c = c' := by
  intro c c'; cases c <;> cases c' <;> decide

/-! ### Reset -/

/-- `State.reset` is what the host's reset leaves with an empty image and a surface that is all off. -/
theorem State.reset_eq_resetWith : State.reset.resetWith [] Framebuffer.allOff = State.reset := rfl

theorem State.resetWith_mem_wf (rom : List Byte) (f : Framebuffer) : (s.resetWith rom f).mem.wf = true :=
  Memory.wf_store rom Config.romBase Memory.wf_nil

end Sys2Proof.Machine
end

