-- ==== Sys2Proof/Laws/PerInstr.lean ====
section
/-! SUPPORT. A law per instruction: its word stands in the row of the opcode map (R85) that bears its mnemonic. -/

namespace Sys2Proof.Laws

/-- Some row of the opcode map has the instruction's mnemonic, and the instruction's word selects that row (R84, R85). -/
def EncodesInRow.Statement (i : Instr) : Prop :=
  ∃ r ∈ opcodeTable, r.mnemonic = mnemonicOf i ∧ encode i &&& r.mask = r.value

/-- A bit of a word made of two fields. -/
theorem bit_of_append {m n : Nat} (a : BitVec m) (b : BitVec n) (k : Nat) :
    (a ++ b).getLsbD k = if k < n then b.getLsbD k else a.getLsbD (k - n) := BitVec.getLsbD_append

/-- The bits of a word with a 12-bit operand that the mask of its row keeps. -/
theorem mask_addr (a : BitVec 4) (nnn : Addr) : (a ++ nnn : Word) &&& 0xF000#16 = (a ++ 0#12 : Word) := by
  apply BitVec.eq_of_getLsbD_eq
  intro k hk
  rw [BitVec.getLsbD_and, show (a ++ nnn : Word).getLsbD k = _ from bit_of_append (a) nnn k,
    show (a ++ 0#12 : Word).getLsbD k = _ from bit_of_append (a) 0#12 k]
  interval_cases k <;> simp

/-- The bits of a word with a register and a byte that the mask of its row keeps. -/
theorem mask_regByte (a x : BitVec 4) (nn : Byte) : (a ++ x ++ nn : Word) &&& 0xF000#16 = (a ++ 0#12 : Word) := by
  apply BitVec.eq_of_getLsbD_eq
  intro k hk
  rw [BitVec.getLsbD_and, show (a ++ x ++ nn : Word).getLsbD k = _ from bit_of_append (a ++ x) nn k,
    show (a ++ 0#12 : Word).getLsbD k = _ from bit_of_append (a) 0#12 k]
  simp only [bit_of_append]
  interval_cases k <;> simp

/-- The bits of a word with two registers that the mask of its row keeps. -/
theorem mask_regReg (a x y b : BitVec 4) : (a ++ x ++ y ++ b : Word) &&& 0xF00F#16 = (a ++ 0#8 ++ b : Word) := by
  apply BitVec.eq_of_getLsbD_eq
  intro k hk
  rw [BitVec.getLsbD_and, show (a ++ x ++ y ++ b : Word).getLsbD k = _ from bit_of_append (a ++ x ++ y) b k,
    show (a ++ 0#8 ++ b : Word).getLsbD k = _ from bit_of_append (a ++ 0#8) b k]
  simp only [bit_of_append]
  interval_cases k <;> simp

/-- The bits of a word with two registers and a height that the mask of its row keeps. -/
theorem mask_sprite (a x y n : BitVec 4) : (a ++ x ++ y ++ n : Word) &&& 0xF000#16 = (a ++ 0#12 : Word) := by
  apply BitVec.eq_of_getLsbD_eq
  intro k hk
  rw [BitVec.getLsbD_and, show (a ++ x ++ y ++ n : Word).getLsbD k = _ from bit_of_append (a ++ x ++ y) n k,
    show (a ++ 0#12 : Word).getLsbD k = _ from bit_of_append (a) 0#12 k]
  simp only [bit_of_append]
  interval_cases k <;> simp

/-- The bits of a word with one register that the mask of its row keeps. -/
theorem mask_reg (a x : BitVec 4) (b : Byte) : (a ++ x ++ b : Word) &&& 0xF0FF#16 = (a ++ 0#4 ++ b : Word) := by
  apply BitVec.eq_of_getLsbD_eq
  intro k hk
  rw [BitVec.getLsbD_and, show (a ++ x ++ b : Word).getLsbD k = _ from bit_of_append (a ++ x) b k,
    show (a ++ 0#4 ++ b : Word).getLsbD k = _ from bit_of_append (a ++ 0#4) b k]
  simp only [bit_of_append]
  interval_cases k <;> simp

theorem EncodesInRow.cls : EncodesInRow.Statement (.cls) :=
  ⟨⟨"CLS", 0xFFFF, 0x00E0⟩, by decide, rfl, by decide⟩

theorem EncodesInRow.ret : EncodesInRow.Statement (.ret) :=
  ⟨⟨"RET", 0xFFFF, 0x00EE⟩, by decide, rfl, by decide⟩

theorem EncodesInRow.jp (nnn : Addr) : EncodesInRow.Statement (.jp nnn) :=
  ⟨⟨"JP_NNN", 0xF000, 0x1000⟩, by decide, rfl, mask_addr 0x1#4 nnn⟩

theorem EncodesInRow.call (nnn : Addr) : EncodesInRow.Statement (.call nnn) :=
  ⟨⟨"CALL_NNN", 0xF000, 0x2000⟩, by decide, rfl, mask_addr 0x2#4 nnn⟩

theorem EncodesInRow.seImm (x : Reg) (nn : Byte) : EncodesInRow.Statement (.seImm x nn) :=
  ⟨⟨"SE_VX__NN", 0xF000, 0x3000⟩, by decide, rfl, mask_regByte 0x3#4 _ nn⟩

theorem EncodesInRow.sneImm (x : Reg) (nn : Byte) : EncodesInRow.Statement (.sneImm x nn) :=
  ⟨⟨"SNE_VX__NN", 0xF000, 0x4000⟩, by decide, rfl, mask_regByte 0x4#4 _ nn⟩

theorem EncodesInRow.seReg (x y : Reg) : EncodesInRow.Statement (.seReg x y) :=
  ⟨⟨"SE_VX__VY", 0xF00F, 0x5000⟩, by decide, rfl, mask_regReg 0x5#4 _ _ 0x0#4⟩

theorem EncodesInRow.ldImm (x : Reg) (nn : Byte) : EncodesInRow.Statement (.ldImm x nn) :=
  ⟨⟨"LD_VX__NN", 0xF000, 0x6000⟩, by decide, rfl, mask_regByte 0x6#4 _ nn⟩

theorem EncodesInRow.addImm (x : Reg) (nn : Byte) : EncodesInRow.Statement (.addImm x nn) :=
  ⟨⟨"ADD_VX__NN", 0xF000, 0x7000⟩, by decide, rfl, mask_regByte 0x7#4 _ nn⟩

theorem EncodesInRow.ldReg (x y : Reg) : EncodesInRow.Statement (.ldReg x y) :=
  ⟨⟨"LD_VX__VY", 0xF00F, 0x8000⟩, by decide, rfl, mask_regReg 0x8#4 _ _ 0x0#4⟩

theorem EncodesInRow.or (x y : Reg) : EncodesInRow.Statement (.or x y) :=
  ⟨⟨"OR_VX__VY", 0xF00F, 0x8001⟩, by decide, rfl, mask_regReg 0x8#4 _ _ 0x1#4⟩

theorem EncodesInRow.and (x y : Reg) : EncodesInRow.Statement (.and x y) :=
  ⟨⟨"AND_VX__VY", 0xF00F, 0x8002⟩, by decide, rfl, mask_regReg 0x8#4 _ _ 0x2#4⟩

theorem EncodesInRow.xor (x y : Reg) : EncodesInRow.Statement (.xor x y) :=
  ⟨⟨"XOR_VX__VY", 0xF00F, 0x8003⟩, by decide, rfl, mask_regReg 0x8#4 _ _ 0x3#4⟩

theorem EncodesInRow.add (x y : Reg) : EncodesInRow.Statement (.add x y) :=
  ⟨⟨"ADD_VX__VY", 0xF00F, 0x8004⟩, by decide, rfl, mask_regReg 0x8#4 _ _ 0x4#4⟩

theorem EncodesInRow.sub (x y : Reg) : EncodesInRow.Statement (.sub x y) :=
  ⟨⟨"SUB_VX__VY", 0xF00F, 0x8005⟩, by decide, rfl, mask_regReg 0x8#4 _ _ 0x5#4⟩

theorem EncodesInRow.shr (x y : Reg) : EncodesInRow.Statement (.shr x y) :=
  ⟨⟨"SHR_VX", 0xF00F, 0x8006⟩, by decide, rfl, mask_regReg 0x8#4 _ _ 0x6#4⟩

theorem EncodesInRow.subn (x y : Reg) : EncodesInRow.Statement (.subn x y) :=
  ⟨⟨"SUBN_VX__VY", 0xF00F, 0x8007⟩, by decide, rfl, mask_regReg 0x8#4 _ _ 0x7#4⟩

theorem EncodesInRow.shl (x y : Reg) : EncodesInRow.Statement (.shl x y) :=
  ⟨⟨"SHL_VX", 0xF00F, 0x800E⟩, by decide, rfl, mask_regReg 0x8#4 _ _ 0xE#4⟩

theorem EncodesInRow.sneReg (x y : Reg) : EncodesInRow.Statement (.sneReg x y) :=
  ⟨⟨"SNE_VX__VY", 0xF00F, 0x9000⟩, by decide, rfl, mask_regReg 0x9#4 _ _ 0x0#4⟩

theorem EncodesInRow.ldI (nnn : Addr) : EncodesInRow.Statement (.ldI nnn) :=
  ⟨⟨"LD_I__NNN", 0xF000, 0xA000⟩, by decide, rfl, mask_addr 0xA#4 nnn⟩

theorem EncodesInRow.jpV0 (nnn : Addr) : EncodesInRow.Statement (.jpV0 nnn) :=
  ⟨⟨"JP_V0__NNN", 0xF000, 0xB000⟩, by decide, rfl, mask_addr 0xB#4 nnn⟩

theorem EncodesInRow.rnd (x : Reg) (nn : Byte) : EncodesInRow.Statement (.rnd x nn) :=
  ⟨⟨"RND_VX__NN", 0xF000, 0xC000⟩, by decide, rfl, mask_regByte 0xC#4 _ nn⟩

theorem EncodesInRow.drw (x y : Reg) (n : Nat) : EncodesInRow.Statement (.drw x y n) :=
  ⟨⟨"DRW_VX__VY__N", 0xF000, 0xD000⟩, by decide, rfl, mask_sprite 0xD#4 _ _ _⟩

theorem EncodesInRow.skp (x : Reg) : EncodesInRow.Statement (.skp x) :=
  ⟨⟨"SKP_VX", 0xF0FF, 0xE09E⟩, by decide, rfl, mask_reg 0xE#4 _ 0x9E#8⟩

theorem EncodesInRow.sknp (x : Reg) : EncodesInRow.Statement (.sknp x) :=
  ⟨⟨"SKNP_VX", 0xF0FF, 0xE0A1⟩, by decide, rfl, mask_reg 0xE#4 _ 0xA1#8⟩

theorem EncodesInRow.ldVxDt (x : Reg) : EncodesInRow.Statement (.ldVxDt x) :=
  ⟨⟨"LD_VX__DT", 0xF0FF, 0xF007⟩, by decide, rfl, mask_reg 0xF#4 _ 0x07#8⟩

theorem EncodesInRow.ldVxK (x : Reg) : EncodesInRow.Statement (.ldVxK x) :=
  ⟨⟨"LD_VX__K", 0xF0FF, 0xF00A⟩, by decide, rfl, mask_reg 0xF#4 _ 0x0A#8⟩

theorem EncodesInRow.ldDtVx (x : Reg) : EncodesInRow.Statement (.ldDtVx x) :=
  ⟨⟨"LD_DT__VX", 0xF0FF, 0xF015⟩, by decide, rfl, mask_reg 0xF#4 _ 0x15#8⟩

theorem EncodesInRow.ldStVx (x : Reg) : EncodesInRow.Statement (.ldStVx x) :=
  ⟨⟨"LD_ST__VX", 0xF0FF, 0xF018⟩, by decide, rfl, mask_reg 0xF#4 _ 0x18#8⟩

theorem EncodesInRow.addI (x : Reg) : EncodesInRow.Statement (.addI x) :=
  ⟨⟨"ADD_I__VX", 0xF0FF, 0xF01E⟩, by decide, rfl, mask_reg 0xF#4 _ 0x1E#8⟩

theorem EncodesInRow.ldF (x : Reg) : EncodesInRow.Statement (.ldF x) :=
  ⟨⟨"LD_F__VX", 0xF0FF, 0xF029⟩, by decide, rfl, mask_reg 0xF#4 _ 0x29#8⟩

theorem EncodesInRow.ldB (x : Reg) : EncodesInRow.Statement (.ldB x) :=
  ⟨⟨"LD_B__VX", 0xF0FF, 0xF033⟩, by decide, rfl, mask_reg 0xF#4 _ 0x33#8⟩

theorem EncodesInRow.ldMemVx (x : Reg) : EncodesInRow.Statement (.ldMemVx x) :=
  ⟨⟨"LD__I___VX", 0xF0FF, 0xF055⟩, by decide, rfl, mask_reg 0xF#4 _ 0x55#8⟩

theorem EncodesInRow.ldVxMem (x : Reg) : EncodesInRow.Statement (.ldVxMem x) :=
  ⟨⟨"LD_VX___I", 0xF0FF, 0xF065⟩, by decide, rfl, mask_reg 0xF#4 _ 0x65#8⟩

end Sys2Proof.Laws
end

