-- ==== Sys2Proof/Laws/Step.lean ====
section
/-! SUPPORT. What a step can be: whose move it is, and the three ways a CPU step of a running core goes. -/

namespace Sys2Proof.Machine

variable {s : State}

/-! ### Whose move it is (R109) -/

/-- A round has a CPU step, a timer tick, and only moves the host may make. -/
theorem roundMoves_fair (k : Nat) :
    Event.cpuStep ∈ roundMoves k ∧ Event.timerTick ∈ roundMoves k ∧ ∀ e ∈ roundMoves k, e.launchable = true := by
  refine ⟨by simp [roundMoves], by simp [roundMoves], fun e he => ?_⟩
  simp only [roundMoves, List.mem_append, List.mem_cons, List.mem_filter, List.not_mem_nil, or_false] at he
  rcases he with ⟨-, h⟩ | rfl | ⟨-, h⟩ | rfl
  · exact h
  · rfl
  · exact h
  · rfl

theorem coming_of_cons {e : Event} {es : List Event} (h : s.schedule = e :: es) : s.coming = e :: es := by
  simp [State.coming, h]

theorem coming_of_nil (h : s.schedule = []) : s.coming = roundMoves s.round := by
  simp [State.coming, h]

theorem coming_ne_nil (s : State) : s.coming ≠ [] := by
  cases h : s.schedule with
  | nil => rw [coming_of_nil h]; exact List.ne_nil_of_mem (roundMoves_fair s.round).1
  | cons e es => rw [coming_of_cons h]; simp

/-- The coming moves are the next one and those left for later. -/
theorem coming_eq (s : State) : s.coming = s.nextEvent :: s.afterTurn.schedule := by
  have h := coming_ne_nil s
  simp only [State.nextEvent, State.afterTurn]
  cases hc : s.coming with
  | nil => exact absurd hc h
  | cons e es => rfl

theorem nextEvent_of_cons {e : Event} {es : List Event} (h : s.schedule = e :: es) : s.nextEvent = e := by
  simp [State.nextEvent, coming_of_cons h]

theorem afterTurn_of_cons {e : Event} {es : List Event} (h : s.schedule = e :: es) :
    s.afterTurn = { s with schedule := es } := by
  simp [State.afterTurn, coming_of_cons h, h]

/-- A next move that no host may make is one the schedule lists. -/
theorem schedule_of_not_launchable (h : s.nextEvent.launchable = false) : s.schedule = s.nextEvent :: s.afterTurn.schedule := by
  have hc := coming_eq s
  cases hs : s.schedule with
  | nil =>
    have hm : s.nextEvent ∈ roundMoves s.round := by rw [← coming_of_nil hs, hc]; simp
    rw [(roundMoves_fair s.round).2.2 _ hm] at h
    exact absurd h (by simp)
  | cons e es => rw [← hc, coming_of_cons hs]

/-- One step: the agent whose move it is moves. -/
theorem step_eq (s : State) : step s = agentStep s.nextEvent s.afterTurn := rfl

theorem step_of_cpuStep (h : s.nextEvent = .cpuStep) : step s = cpuStep s.afterTurn := by
  rw [step_eq, h]; rfl

theorem step_of_listed {e : Event} {es : List Event} (h : s.schedule = e :: es) :
    step s = agentStep e { s with schedule := es } := by
  rw [step_eq, nextEvent_of_cons h, afterTurn_of_cons h]

/-! ### Runs -/

/-- A run whose first step answers goes on from there; stated of any machine, for the host's own recursion. -/
theorem run_succ_of_next (M : Host.Core) {k : Nat} {s t : M.State} (h : M.step s = .next t) : M.run (k + 1) s = M.run k t := by
  rw [Host.Core.run, h]

theorem run_succ_of_refused (M : Host.Core) {k : Nat} {s : M.State} {r : M.Refusal} (h : M.step s = .refused r) :
    M.run (k + 1) s = .refused r := by
  rw [Host.Core.run, h]

theorem coreRun_zero (s : State) : core.run 0 s = .next s := rfl

theorem coreRun_next {k : Nat} {s t : State} (h : step s = .next t) : core.run (k + 1) s = core.run k t :=
  run_succ_of_next core h

theorem coreRun_refused {k : Nat} {s : State} {r : Refusal} (h : step s = .refused r) : core.run (k + 1) s = .refused r :=
  run_succ_of_refused core h

/-! ### The CPU step -/

theorem cpuStep_halted (h : s.halted = true) : cpuStep s = .next s := by
  simp [cpuStep, h]

theorem cpuStep_fetchFault (h : s.halted = false) {a : Word} (hf : s.fetch = .error a) :
    cpuStep s = .next (s.raise .memOutOfRange 0#16 a) := by
  simp [cpuStep, h, hf]

theorem cpuStep_unrecognized (h : s.halted = false) {op : Word} (hf : s.fetch = .ok op) {r : DecodeReject}
    (hd : decodeWord op = .error r) : cpuStep s = .next (s.raise .unrecognizedOpcode op op) := by
  simp [cpuStep, h, hf, hd]

theorem cpuStep_exec (h : s.halted = false) {op : Word} (hf : s.fetch = .ok op) {i : Instr}
    (hd : decodeWord op = .ok i) : cpuStep s = exec i s := by
  simp [cpuStep, h, hf, hd]

/-- The ways a CPU step of a running core goes (R101, R220): the fetch faults, the word is unrecognised, or exactly one
instruction is executed. -/
theorem cpuStep_cases (h : s.halted = false) :
    (∃ a, s.fetch = .error a ∧ cpuStep s = .next (s.raise .memOutOfRange 0#16 a)) ∨
    (∃ op r, s.fetch = .ok op ∧ decodeWord op = .error r ∧ cpuStep s = .next (s.raise .unrecognizedOpcode op op)) ∨
    (∃ op i, s.fetch = .ok op ∧ decodeWord op = .ok i ∧ cpuStep s = exec i s) := by
  cases hf : s.fetch with
  | error a => exact .inl ⟨a, rfl, cpuStep_fetchFault h hf⟩
  | ok op =>
    cases hd : decodeWord op with
    | error r => exact .inr (.inl ⟨op, r, rfl, hd, cpuStep_unrecognized h hf hd⟩)
    | ok i => exact .inr (.inr ⟨op, i, rfl, hd, cpuStep_exec h hf hd⟩)

/-- An instruction that may move the stack: what a return can be (R121). -/
theorem execRet_cases (s : State) :
    (s.sp = 0 ∧ execRet s = .next (s.raise .stackUnderflow (encode .ret) 0#16)) ∨
    (∃ k : Fin 16, s.sp = k.succ ∧ execRet s = .next { s with sp := k.castSucc, pc := s.stack[k] }) := by
  rcases s.sp_empty_or_used with h | ⟨k, h⟩
  · exact .inl ⟨h, by simp [execRet, s.pop_none h]⟩
  · exact .inr ⟨k, h, by simp only [execRet, s.pop_some k h]; rfl⟩

/-- What a call can be (R123). -/
theorem execCall_cases (nnn : Addr) (s : State) :
    (s.sp = 16 ∧ execCall nnn s = .next (s.raise .stackOverflow (encode (.call nnn)) 0#16)) ∨
    (∃ k : Fin 16, s.sp = k.castSucc ∧ execCall nnn s =
      .next { s with stack := s.stack.set k (s.pc + 2#16), sp := k.succ, pc := zextAddr nnn }) := by
  rcases s.sp_full_or_room with h | ⟨k, h⟩
  · exact .inl ⟨h, by simp [execCall, s.push_none h]⟩
  · exact .inr ⟨k, h, by simp only [execCall, s.push_some k h]; rfl⟩

/-- What a key test can be (R191, R192). -/
theorem keySkip_cases (b : Byte) (down : Bool) (op : Word) (s : State) :
    (15 < b.toNat ∧ keySkip b down op s = s.raise .invalidKeyIndex op (zextByte b)) ∨
    (b.toNat ≤ 15 ∧ keySkip b down op s = s.skipIf (s.keys.getLsbD b.toNat == down)) := by
  unfold keySkip
  by_cases h : b.toNat > 0x0F
  · exact .inl ⟨h, if_pos h⟩
  · exact .inr ⟨by omega, if_neg h⟩

end Sys2Proof.Machine
end

