-- ==== Sys2Proof/Laws/Surface.lean ====
section
/-! SUPPORT. The laws of the display surface (R180) and of the sprite loop (R183): each pixel is exclusive-ored with the
sprite bit that lands on it, and the flag says whether a lit pixel was hit. -/

namespace Sys2Proof.Machine

/-- The one set bit of a shifted 1. -/
theorem getLsbD_oneBit (x x' : Nat) : (1#64 <<< x).getLsbD x' = decide (x' = x ∧ x < 64) := by
  simp only [BitVec.getLsbD_shiftLeft, BitVec.getLsbD_one]
  rcases Nat.lt_trichotomy x' x with h | h | h
  · simp [h, Nat.ne_of_lt h]
  · subst h; simp
  · simp [Nat.ne_of_gt h]; omega

/-- The framebuffer contract: a pixel read after a pixel write (R180). -/
theorem Framebuffer.getPixel_setPixel (fb : Framebuffer) (x y x' y' : Nat) (on : Bool) :
    (fb.setPixel x y on).getPixel x' y' =
      if x' = x ∧ y' = y ∧ x < 64 ∧ y < 32 then on else fb.getPixel x' y' := by
  unfold Framebuffer.setPixel Framebuffer.getPixel
  by_cases hy : y < 32
  · by_cases hx : x < 64
    · by_cases hy' : y' < 32
      · simp only [hy, hx, hy', dite_true, if_true, and_true, Vector.getElem_set]
        by_cases h1 : y = y'
        · subst h1
          by_cases h2 : x' = x
          · subst h2; cases on <;> simp [hx]
          · have h4 : (1#64 <<< x).getLsbD x' = false := by rw [getLsbD_oneBit]; simp [h2]
            cases on
            · by_cases h3 : x' < 64
              · simp only [Bool.false_eq_true, if_false, if_true, BitVec.getLsbD_and, BitVec.getLsbD_not, h4, h3, h2, false_and]
                simp
              · simp [BitVec.getLsbD_of_ge _ x' (Nat.le_of_not_lt h3), h2]
            · simp only [if_true, BitVec.getLsbD_or, h4, h2, false_and, if_false, Bool.or_false]
        · simp [h1, eq_comm]
      · simp [hy, hx, hy', show ¬ (y' = y) by omega]
    · simp [hy, hx]
  · simp [hy]

theorem Framebuffer.getPixel_allOff (x y : Nat) : Framebuffer.allOff.getPixel x y = false := by
  unfold Framebuffer.getPixel Framebuffer.allOff
  split <;> simp

/-- Surfaces that agree on every pixel of the 64 × 32 are the same. -/
theorem Framebuffer.ext_pixel {f g : Framebuffer} (h : ∀ x < 64, ∀ y < 32, f.getPixel x y = g.getPixel x y) : f = g := by
  apply Vector.ext
  intro y hy
  apply BitVec.eq_of_getLsbD_eq
  intro x hx
  have := h x hx y hy
  simpa [Framebuffer.getPixel, hy] using this

theorem drawPixel_getPixel (px py x y : Nat) (bit : Bool) (acc : Framebuffer × Bool) :
    (drawPixel px py bit acc).1.getPixel x y =
      (acc.1.getPixel x y ^^ (decide (x = px ∧ y = py ∧ px < 64 ∧ py < 32) && bit)) := by
  unfold drawPixel
  by_cases h : px ≤ 63 ∧ py ≤ 31
  · rw [if_pos h]
    simp only [Framebuffer.getPixel_setPixel]
    by_cases h2 : x = px ∧ y = py
    · obtain ⟨rfl, rfl⟩ := h2
      simp [show x < 64 by omega, show y < 32 by omega]
    · rw [if_neg (by tauto), decide_eq_false (by tauto)]; simp
  · rw [if_neg h, decide_eq_false (by omega)]; simp

theorem drawPixel_collision (px py : Nat) (bit : Bool) (acc : Framebuffer × Bool) :
    (drawPixel px py bit acc).2 = (acc.2 || (decide (px < 64 ∧ py < 32) && bit && acc.1.getPixel px py)) := by
  unfold drawPixel
  by_cases h : px ≤ 63 ∧ py ≤ 31
  · rw [if_pos h, decide_eq_true (by omega : px < 64 ∧ py < 32)]; simp
  · rw [if_neg h, decide_eq_false (by omega : ¬(px < 64 ∧ py < 32))]; simp

/-- The first `n` columns of a sprite row, as `drawRow` draws all eight. -/
def drawColumns (x0 py : Nat) (row : Byte) (n : Nat) (acc : Framebuffer × Bool) : Framebuffer × Bool :=
  (List.range n).foldl (fun acc c => drawPixel (x0 + c) py (spriteBit row c) acc) acc

theorem drawColumns_succ (x0 py : Nat) (row : Byte) (n : Nat) (acc : Framebuffer × Bool) :
    drawColumns x0 py row (n + 1) acc = drawPixel (x0 + n) py (spriteBit row n) (drawColumns x0 py row n acc) := by
  simp [drawColumns, List.range_succ]

/-- Whether one of the first `n` columns of a sprite row puts a set bit on a surface pixel. -/
def rowHits (x0 py : Nat) (row : Byte) (n x y : Nat) : Bool :=
  decide (y = py ∧ x0 ≤ x ∧ x < x0 + n ∧ x < 64 ∧ y < 32) && spriteBit row (x - x0)

theorem drawColumns_getPixel (x0 py : Nat) (row : Byte) (acc : Framebuffer × Bool) (x y : Nat) :
    ∀ n, (drawColumns x0 py row n acc).1.getPixel x y = (acc.1.getPixel x y ^^ rowHits x0 py row n x y) := by
  intro n
  induction n with
  | zero =>
    have : ¬(y = py ∧ x0 ≤ x ∧ x < x0 + 0 ∧ x < 64 ∧ y < 32) := by omega
    simp only [drawColumns, rowHits, decide_eq_false this]
    simp
  | succ n ih =>
    rw [drawColumns_succ, drawPixel_getPixel, ih]
    unfold rowHits
    by_cases h : x = x0 + n
    · subst h
      by_cases hy : y = py
      · subst hy; simp
      · simp [hy]
    · have : (y = py ∧ x0 ≤ x ∧ x < x0 + (n + 1) ∧ x < 64 ∧ y < 32) ↔ (y = py ∧ x0 ≤ x ∧ x < x0 + n ∧ x < 64 ∧ y < 32) := by
        omega
      simp [h, this]

theorem drawColumns_collision (x0 py : Nat) (row : Byte) (acc : Framebuffer × Bool) :
    ∀ n, (drawColumns x0 py row n acc).2 = true ↔
      acc.2 = true ∨ ∃ x, rowHits x0 py row n x py = true ∧ acc.1.getPixel x py = true := by
  intro n
  induction n with
  | zero => simp [drawColumns, rowHits]; intros; omega
  | succ n ih =>
    have hnew : rowHits x0 py row n (x0 + n) py = false := by simp [rowHits]
    rw [drawColumns_succ, drawPixel_collision, drawColumns_getPixel, hnew, Bool.xor_false]
    simp only [Bool.or_eq_true, ih, Bool.and_eq_true, decide_eq_true_eq]
    constructor
    · rintro ((h | ⟨x, hx, hl⟩) | ⟨⟨hb, hs⟩, hl⟩)
      · exact .inl h
      · refine .inr ⟨x, ?_, hl⟩
        simp only [rowHits, Bool.and_eq_true, decide_eq_true_eq] at hx ⊢
        exact ⟨by refine ⟨by trivial, ?_⟩; omega, hx.2⟩
      · refine .inr ⟨x0 + n, ?_, hl⟩
        simp only [rowHits, Bool.and_eq_true, decide_eq_true_eq]
        exact ⟨by refine ⟨by trivial, ?_⟩; omega, by simpa using hs⟩
    · rintro (h | ⟨x, hx, hl⟩)
      · exact .inl (.inl h)
      · simp only [rowHits, Bool.and_eq_true, decide_eq_true_eq] at hx
        by_cases h : x = x0 + n
        · subst h
          exact .inr ⟨⟨by omega, by simpa using hx.2⟩, hl⟩
        · refine .inl (.inr ⟨x, ?_, hl⟩)
          simp only [rowHits, Bool.and_eq_true, decide_eq_true_eq]
          exact ⟨by refine ⟨by trivial, ?_⟩; omega, hx.2⟩

theorem drawRow_eq_drawColumns (x0 py : Nat) (row : Byte) (acc : Framebuffer × Bool) :
    drawRow x0 py row acc = drawColumns x0 py row 8 acc := rfl

/-- Whether a sprite of the given rows with its origin at (`x0`, `y0`) puts a set bit on a surface pixel; a pixel off the
surface is never hit (R182). -/
def spriteHits (x0 y0 : Nat) (rows : List Byte) (x y : Nat) : Bool :=
  decide (y0 ≤ y ∧ y < y0 + rows.length ∧ x0 ≤ x ∧ x < x0 + 8 ∧ x < 64 ∧ y < 32) &&
    spriteBit (rows.getD (y - y0) 0#8) (x - x0)

theorem spriteHits_cons (x0 y0 : Nat) (row : Byte) (rows : List Byte) (x y : Nat) :
    spriteHits x0 y0 (row :: rows) x y = (rowHits x0 y0 row 8 x y ^^ spriteHits x0 (y0 + 1) rows x y) := by
  unfold spriteHits rowHits
  simp only [List.length_cons]
  by_cases h : y = y0
  · subst h
    have h1 : ¬(y + 1 ≤ y ∧ y < y + 1 + rows.length ∧ x0 ≤ x ∧ x < x0 + 8 ∧ x < 64 ∧ y < 32) := by omega
    have h2 : (y ≤ y ∧ y < y + (rows.length + 1) ∧ x0 ≤ x ∧ x < x0 + 8 ∧ x < 64 ∧ y < 32) ↔
        (y = y ∧ x0 ≤ x ∧ x < x0 + 8 ∧ x < 64 ∧ y < 32) := by omega
    rw [decide_eq_false h1]
    simp only [h2, Nat.sub_self, List.getD_cons_zero]
    simp
  · by_cases h3 : y0 ≤ y
    · obtain ⟨k, rfl⟩ : ∃ k, y = y0 + (k + 1) := ⟨y - y0 - 1, by omega⟩
      have h2 : (y0 ≤ y0 + (k + 1) ∧ y0 + (k + 1) < y0 + (rows.length + 1) ∧ x0 ≤ x ∧ x < x0 + 8 ∧ x < 64 ∧ y0 + (k + 1) < 32) ↔
          (y0 + 1 ≤ y0 + (k + 1) ∧ y0 + (k + 1) < y0 + 1 + rows.length ∧ x0 ≤ x ∧ x < x0 + 8 ∧ x < 64 ∧ y0 + (k + 1) < 32) := by
        omega
      rw [show y0 + (k + 1) - y0 = k + 1 by omega, show y0 + (k + 1) - (y0 + 1) = k by omega, List.getD_cons_succ]
      simp only [h2, h, false_and, decide_false, Bool.false_and, Bool.false_xor]
    · have h1 : ¬(y0 ≤ y ∧ y < y0 + (rows.length + 1) ∧ x0 ≤ x ∧ x < x0 + 8 ∧ x < 64 ∧ y < 32) := by omega
      have h2 : ¬(y0 + 1 ≤ y ∧ y < y0 + 1 + rows.length ∧ x0 ≤ x ∧ x < x0 + 8 ∧ x < 64 ∧ y < 32) := by omega
      rw [decide_eq_false h1, decide_eq_false h2]
      simp [h]

/-- What the whole loop of R183 does to a pixel. -/
theorem drawRows_getPixel (x0 : Nat) : ∀ (rows : List Byte) (y0 : Nat) (acc : Framebuffer × Bool) (x y : Nat),
    (drawRows x0 y0 rows acc).1.getPixel x y = (acc.1.getPixel x y ^^ spriteHits x0 y0 rows x y) := by
  intro rows
  induction rows with
  | nil =>
    intro y0 acc x y
    have : ¬(y0 ≤ y ∧ y < y0 + 0 ∧ x0 ≤ x ∧ x < x0 + 8 ∧ x < 64 ∧ y < 32) := by omega
    simp only [drawRows, spriteHits, List.length_nil, decide_eq_false this]
    simp
  | cons row rows ih =>
    intro y0 acc x y
    rw [drawRows, ih, drawRow_eq_drawColumns, drawColumns_getPixel, spriteHits_cons, Bool.xor_assoc]

/-- When the whole loop of R183 sets the collision flag. -/
theorem drawRows_collision (x0 : Nat) : ∀ (rows : List Byte) (y0 : Nat) (acc : Framebuffer × Bool),
    (drawRows x0 y0 rows acc).2 = true ↔
      acc.2 = true ∨ ∃ x y, spriteHits x0 y0 rows x y = true ∧ acc.1.getPixel x y = true := by
  intro rows
  induction rows with
  | nil => intro y0 acc; simp [drawRows, spriteHits]; intros; omega
  | cons row rows ih =>
    intro y0 acc
    have hdisj : ∀ x y, rowHits x0 y0 row 8 x y = true → spriteHits x0 (y0 + 1) rows x y = false := by
      intro x y h
      simp only [rowHits, Bool.and_eq_true, decide_eq_true_eq] at h
      unfold spriteHits
      rw [decide_eq_false (by omega)]; rfl
    rw [drawRows, ih, drawRow_eq_drawColumns, drawColumns_collision]
    simp only [drawColumns_getPixel, spriteHits_cons]
    constructor
    · rintro ((h | ⟨x, hx, hl⟩) | ⟨x, y, hs, hl⟩)
      · exact .inl h
      · exact .inr ⟨x, y0, by simp [hx, hdisj x y0 hx], hl⟩
      · have hr : rowHits x0 y0 row 8 x y = false := by
          by_contra hc
          rw [hdisj x y (by simpa using hc)] at hs
          exact absurd hs (by simp)
        exact .inr ⟨x, y, by simp [hs, hr], by simpa [hr] using hl⟩
    · rintro (h | ⟨x, y, hs, hl⟩)
      · exact .inl (.inl h)
      · cases hr : rowHits x0 y0 row 8 x y with
        | true =>
          have hy : y = y0 := by
            simp only [rowHits, Bool.and_eq_true, decide_eq_true_eq] at hr; exact hr.1.1
          subst hy
          exact .inl (.inr ⟨x, hr, hl⟩)
        | false => exact .inr ⟨x, y, by simpa [hr] using hs, by simp [hr, hl]⟩

end Sys2Proof.Machine
end

