-- ==== Sys2Proof/Tests/Slice0.lean ====
section
/-! SUPPORT. Tests of the model: the words of the encoding and single steps, with expected results from spec/95_test_vectors.md
(V-... ids) or the examples of the rules; and for each statement with hypotheses a concrete case that meets them. -/

namespace Sys2Proof.Tests

open Sys2Proof.Machine

/-! ### Well-formedness and encoding -/

/-- The one check of `WellFormed`: a height that four bits do not hold is refused. -/
theorem test_wellFormed_refuses_height_16 : WellFormed (.drw 0 0 16) = false := by decide

theorem test_wellFormed_accepts_height_15 : WellFormed (.drw 1 2 15) = true := by decide

/-- A word decodes to an instruction, and the instruction encodes to the word. -/
def isWordOf (w : Word) (i : Instr) : Bool := decide (decodeWord w = .ok i) && decide (encode i = w)

/-- The words of R85, control flow: the example or a vector of each rule. -/
theorem test_words_control :
    isWordOf 0x00EE#16 .ret && isWordOf 0x1ABC#16 (.jp 0xABC#12) && isWordOf 0x220C#16 (.call 0x20C#12) &&
    isWordOf 0x3A42#16 (.seImm 10 0x42#8) && isWordOf 0x4311#16 (.sneImm 3 0x11#8) && isWordOf 0x5120#16 (.seReg 1 2) &&
    isWordOf 0x9120#16 (.sneReg 1 2) && isWordOf 0xB300#16 (.jpV0 0x300#12) = true := by decide

/-- The words of R85, registers and arithmetic. -/
theorem test_words_alu :
    isWordOf 0x6A2C#16 (.ldImm 10 0x2C#8) && isWordOf 0x7105#16 (.addImm 1 0x05#8) && isWordOf 0x8120#16 (.ldReg 1 2) &&
    isWordOf 0x8121#16 (.or 1 2) && isWordOf 0x8122#16 (.and 1 2) && isWordOf 0x8123#16 (.xor 1 2) &&
    isWordOf 0x8AB4#16 (.add 10 11) && isWordOf 0x8015#16 (.sub 0 1) && isWordOf 0x8126#16 (.shr 1 2) &&
    isWordOf 0x8017#16 (.subn 0 1) && isWordOf 0x8FFE#16 (.shl 15 15) && isWordOf 0xC30F#16 (.rnd 3 0x0F#8) = true := by
  decide

/-- The words of R85, index register, memory and display. -/
theorem test_words_memory_display :
    isWordOf 0xA123#16 (.ldI 0x123#12) && isWordOf 0xF21E#16 (.addI 2) && isWordOf 0xF429#16 (.ldF 4) &&
    isWordOf 0xF033#16 (.ldB 0) && isWordOf 0xF255#16 (.ldMemVx 2) && isWordOf 0xFF65#16 (.ldVxMem 15) &&
    isWordOf 0x00E0#16 .cls && isWordOf 0xD12F#16 (.drw 1 2 15) = true := by decide

/-- The words of R85, keypad and timers; V-E4 for `FX0A`. -/
theorem test_words_keypad_timers :
    isWordOf 0xE29E#16 (.skp 2) && isWordOf 0xE2A1#16 (.sknp 2) && isWordOf 0xF507#16 (.ldVxDt 5) &&
    isWordOf 0xF00A#16 (.ldVxK 0) && isWordOf 0xFF0A#16 (.ldVxK 15) && isWordOf 0xF015#16 (.ldDtVx 0) &&
    isWordOf 0xF118#16 (.ldStVx 1) = true := by decide

/-- V-E1: fetch order is high byte first. -/
theorem test_decode_big_endian : decode [0x12#8, 0x34#8, 0xAA#8] = .ok (.jp 0x234#12, [0xAA#8]) := by decide

/-- V-E5, V-C16, V-C19, V-A31, V-A32, V-K7, V-K16: words that select no row. -/
theorem test_unrecognised_words :
    [0x00EF#16, 0x0000#16, 0x0200#16, 0x5121#16, 0x912F#16, 0x8128#16, 0x812F#16, 0xE29F#16, 0xF508#16].all
      (fun w => !(decodeWord w).isOk) = true := by decide

theorem test_one_byte_is_no_word : decode [0x12#8] = .error .tooFewBytes := by decide

theorem test_decodeTableWord : decodeTableWord 16 0xD12F = some (.drw 1 2 15) ∧ decodeTableWord 16 0x00EF = none := by decide

/-- The 34 rows have 34 mnemonics, and a word finds its row by mask and match (R84). -/
theorem test_rowOfWord : opcodeTable.length = 34 ∧ (rowOfWord 0x8AB4#16).map OpcodeRow.mnemonic = some "ADD_VX__VY" := by decide

/-! ### One step -/

/-- The outcome is a next state with the property. -/
def nextIs (r : Host.Outcome State Fault Refusal) (p : State → Bool) : Bool :=
  match r with
  | .next t => p t
  | _ => false

/-- The state after reset with values in some registers. -/
def regs (l : List (Reg × Byte)) : State := l.foldl (fun s p => s.setReg p.1 p.2) State.reset

/-- The state with the CPU to move next and nothing else settled. -/
def cpuNext (s : State) : State := { s with schedule := [.cpuStep] }

/-- A step that fetches `w` reaches a state with the property. -/
def runs (s : State) (w : Nat) (p : State → Bool) : Bool := nextIs (step (s.withFetchWord 16 w)) p

/-- A state that has taken the fault. -/
def faulted (pc : Word) (cause : FaultCause) (code : BitVec 3) (op info : Word) (t : State) : Bool :=
  t.halted && t.pc == pc && t.faultCause == cause && cause.code == code && t.faultPc == pc && t.faultOp == op &&
    t.faultInfo == info

/-- V-C2. -/
theorem test_ret : runs { State.reset with pc := 0x300#16, sp := 2, stack := State.reset.stack.set 0 0x202#16 |>.set 1 0xFFF#16 }
    0x00EE (fun t => t.pc == 0xFFF#16 && t.sp == 1) = true := by decide

/-- V-C3. -/
theorem test_ret_empty : runs State.reset 0x00EE
    (fun t => faulted 0x200#16 .stackUnderflow 2#3 0x00EE#16 0#16 t && t.sp == 0) = true := by decide

/-- V-C5: a self-jump leaves the whole state unchanged. -/
theorem test_jp_self : runs State.reset 0x1200 (fun t => decide (cpuNext t = State.reset.withFetchWord 16 0x1200)) = true := by decide

/-- V-C7: the pushed address has 16 bits. -/
theorem test_call_pushes_1000 : runs (State.reset.setPc 0xFFE#16) 0x2400
    (fun t => t.pc == 0x400#16 && t.sp == 1 && t.stack[(0 : Fin 16)] == 0x1000#16) = true := by decide

/-- V-C8. -/
theorem test_call_full : runs { State.reset with sp := 16 } 0x2300
    (fun t => faulted 0x200#16 .stackOverflow 5#3 0x2300#16 0#16 t && t.sp == 16) = true := by decide

/-- V-C9, V-C10. -/
theorem test_seImm : runs (regs [(10, 0x42#8)]) 0x3A42 (fun t => t.pc == 0x204#16) &&
    runs (regs [(10, 0x43#8)]) 0x3A42 (fun t => t.pc == 0x202#16) = true := by decide

/-- V-C11, V-C12. -/
theorem test_sneImm : runs (regs [(10, 0x42#8)]) 0x4A42 (fun t => t.pc == 0x202#16) &&
    runs (regs [(10, 0x43#8)]) 0x4A42 (fun t => t.pc == 0x204#16) = true := by decide

/-- V-C13, V-C14. -/
theorem test_seReg : runs (regs [(1, 7#8), (2, 7#8)]) 0x5120 (fun t => t.pc == 0x204#16) &&
    runs (regs [(1, 7#8), (2, 8#8)]) 0x5120 (fun t => t.pc == 0x202#16) = true := by decide

/-- V-C17, V-C18. -/
theorem test_sneReg : runs (regs [(1, 7#8), (2, 8#8)]) 0x9120 (fun t => t.pc == 0x204#16) &&
    runs (regs [(1, 7#8), (2, 7#8)]) 0x9120 (fun t => t.pc == 0x202#16) = true := by decide

/-- V-C21, V-C22: not reduced, and `V0` whatever the digit after the B. -/
theorem test_jpV0 : runs (regs [(0, 0xFF#8)]) 0xBFFF (fun t => t.pc == 0x10FE#16) &&
    runs (regs [(0, 4#8), (3, 0x50#8)]) 0xB300 (fun t => t.pc == 0x304#16) = true := by decide

/-- V-C24, V-C30: a fetch out of range, with the two values of `fault_info`. -/
theorem test_fetch_faults : nextIs (step (cpuNext (State.reset.setPc 0xFFF#16))) (faulted 0xFFF#16 .memOutOfRange 3#3 0#16 0x1000#16) &&
    nextIs (step (cpuNext (State.reset.setPc 0x10FE#16))) (faulted 0x10FE#16 .memOutOfRange 3#3 0#16 0x10FE#16) = true := by decide

/-- V-C16. -/
theorem test_unrecognised_faults : runs (regs [(1, 7#8), (2, 7#8)]) 0x5121
    (faulted 0x200#16 .unrecognizedOpcode 1#3 0x5121#16 0x5121#16) = true := by decide

/-- V-A2. -/
theorem test_ldImm : runs State.reset 0x6F55 (fun t => t.v[(15 : Reg)] == 0x55#8 && t.pc == 0x202#16) = true := by decide

/-- V-A3: wraps, and `VF` is kept. -/
theorem test_addImm : runs (regs [(0, 0xFF#8), (15, 1#8)]) 0x7001
    (fun t => t.v[(0 : Reg)] == 0#8 && t.v[(15 : Reg)] == 1#8) = true := by decide

/-- V-A6. -/
theorem test_ldReg : runs (regs [(1, 1#8), (2, 0xAB#8)]) 0x8120 (fun t => t.v[(1 : Reg)] == 0xAB#8) = true := by decide

/-- V-A7: `VF` is kept. -/
theorem test_or : runs (regs [(1, 0x0F#8), (2, 0xF0#8), (15, 1#8)]) 0x8121
    (fun t => t.v[(1 : Reg)] == 0xFF#8 && t.v[(15 : Reg)] == 1#8) = true := by decide

/-- V-A8. -/
theorem test_and : runs (regs [(1, 0x3C#8), (2, 0x0F#8), (15, 1#8)]) 0x8122
    (fun t => t.v[(1 : Reg)] == 0x0C#8 && t.v[(15 : Reg)] == 1#8) = true := by decide

/-- V-A9. -/
theorem test_xor : runs (regs [(1, 0xFF#8), (2, 0x0F#8), (15, 1#8)]) 0x8123
    (fun t => t.v[(1 : Reg)] == 0xF0#8 && t.v[(15 : Reg)] == 1#8) = true := by decide

/-- V-A12: a sum of 255 clears the flag. -/
theorem test_add : runs (regs [(0, 0xFE#8), (1, 1#8), (15, 1#8)]) 0x8014
    (fun t => t.v[(0 : Reg)] == 0xFF#8 && t.v[(15 : Reg)] == 0#8) = true := by decide

/-- V-A15: with `X = F` the flag wins. -/
theorem test_add_into_flag : runs (regs [(15, 0xF0#8), (1, 0x20#8)]) 0x8F14 (fun t => t.v[(15 : Reg)] == 1#8) = true := by decide

/-- V-A18. -/
theorem test_sub_borrow : runs (regs [(0, 5#8), (1, 7#8)]) 0x8015
    (fun t => t.v[(0 : Reg)] == 0xFE#8 && t.v[(15 : Reg)] == 0#8) = true := by decide

/-- V-A19: equal operands set the flag. -/
theorem test_sub_equal : runs (regs [(0, 5#8), (1, 5#8)]) 0x8015
    (fun t => t.v[(0 : Reg)] == 0#8 && t.v[(15 : Reg)] == 1#8) = true := by decide

/-- V-A22: the source is `V[X]`. -/
theorem test_shr : runs (regs [(1, 4#8), (2, 0xFF#8)]) 0x8126
    (fun t => t.v[(1 : Reg)] == 2#8 && t.v[(15 : Reg)] == 0#8) = true := by decide

/-- V-A25. -/
theorem test_subn : runs (regs [(0, 5#8), (1, 7#8)]) 0x8017
    (fun t => t.v[(0 : Reg)] == 2#8 && t.v[(15 : Reg)] == 1#8) = true := by decide

/-- V-A29, V-A30. -/
theorem test_shl : runs (regs [(1, 0x40#8), (15, 1#8)]) 0x810E (fun t => t.v[(1 : Reg)] == 0x80#8 && t.v[(15 : Reg)] == 0#8) &&
    runs (regs [(15, 0x80#8)]) 0x8FFE (fun t => t.v[(15 : Reg)] == 1#8) = true := by decide

/-- V-A33: the random byte of the step under the mask; for whatever byte is drawn. -/
theorem test_rnd : ∃ t, step ((regs [(3, 0xFF#8)]).withFetchWord 16 0xC30F) = .next t ∧
    t.v[(3 : Reg)] = (Config.randByte 0 &&& 0x0F#8) ∧ t.pc = 0x202#16 := ⟨_, rfl, rfl, rfl⟩

/-- V-M2. -/
theorem test_ldI : runs State.reset 0xAFFF (fun t => t.i == 0xFFF#16) = true := by decide

/-- V-M4, V-M5: the sums 0x1000 and 0xFFF. -/
theorem test_addI : runs ((regs [(2, 2#8)]).setIndex 0xFFE#16) 0xF21E (fun t => t.i == 0#16 && t.v[(15 : Reg)] == 1#8) &&
    runs ((regs [(2, 1#8)]).setIndex 0xFFE#16) 0xF21E (fun t => t.i == 0xFFF#16 && t.v[(15 : Reg)] == 0#8) = true := by decide

/-- V-M7: `X = F`. -/
theorem test_addI_flag : runs ((regs [(15, 1#8)]).setIndex 0xFFF#16) 0xFF1E
    (fun t => t.i == 0#16 && t.v[(15 : Reg)] == 1#8) = true := by decide

/-- V-M9: the high nibble is ignored. -/
theorem test_ldF : runs ((regs [(4, 0x1A#8)]).setIndex 0x123#16) 0xF429 (fun t => t.i == 0x032#16) = true := by decide

/-- V-M13. -/
theorem test_ldB : runs ((regs [(0, 0x9C#8)]).setIndex 0x300#16) 0xF033
    (fun t => t.mem.load 0x300 3 == [1#8, 5#8, 6#8] && t.i == 0x300#16) = true := by decide

/-- V-M15. -/
theorem test_ldB_fault : runs ((regs [(0, 0x64#8)]).setIndex 0xFFE#16) 0xF033
    (fun t => faulted 0x200#16 .memOutOfRange 3#3 0xF033#16 0x1000#16 t && t.byteAt 0xFFE == 0#8) = true := by decide

/-- V-M16: `X + 1` bytes. -/
theorem test_ldMemVx : runs ((regs [(0, 0x11#8), (1, 0x22#8), (2, 0x33#8), (3, 0x44#8)]).setIndex 0x400#16) 0xF255
    (fun t => t.mem.load 0x400 4 == [0x11#8, 0x22#8, 0x33#8, 0#8] && t.i == 0x400#16) = true := by decide

/-- V-M18: nothing is written. -/
theorem test_ldMemVx_fault : runs ((regs [(0, 0x11#8), (1, 0x22#8)]).setIndex 0xFFF#16) 0xF155
    (fun t => faulted 0x200#16 .memOutOfRange 3#3 0xF155#16 0x1000#16 t && t.byteAt 0xFFF == 0#8) = true := by decide

/-- V-M19. -/
theorem test_ldVxMem : runs (((regs [(3, 0x77#8)]).setIndex 0x300#16).setMem
      (Memory.store [] 0x300 [0x0A#8, 0x0B#8, 0x0C#8, 0x0D#8])) 0xF265
    (fun t => t.v.toList.take 4 == [0x0A#8, 0x0B#8, 0x0C#8, 0x77#8] && t.i == 0x300#16) = true := by decide

/-- V-M21. -/
theorem test_ldVxMem_fault : runs (State.reset.setIndex 0xFF1#16) 0xFF65
    (faulted 0x200#16 .memOutOfRange 3#3 0xFF65#16 0x1000#16) = true := by decide

/-- V-D1: every pixel off, no `present`. -/
theorem test_cls : runs (State.reset.setSurface ((State.reset.fb.setPixel 0 0 true).setPixel 63 31 true)) 0x00E0
    (fun t => decide (t.fb = Framebuffer.allOff) && t.presentCount == 0) = true := by decide

/-- V-D5: (0,0) turns on, (1,0) turns off and collides, (2,0) is untouched. -/
theorem test_drw : runs (((State.reset.setIndex 0x300#16).setMem (Memory.store [] 0x300 [0xC0#8])).setSurface
      ((State.reset.fb.setPixel 1 0 true).setPixel 2 0 true)) 0xD011
    (fun t => t.pixel 0 0 && !t.pixel 1 0 && t.pixel 2 0 && t.v[(15 : Reg)] == 1#8 && t.presentCount == 1) = true := by decide

/-- V-D8: the eighth column is dropped, not wrapped. -/
theorem test_drw_clips : runs ((((regs [(0, 0x39#8)]).setIndex 0x300#16).setMem (Memory.store [] 0x300 [0xFF#8])).setSurface
      (State.reset.fb.setPixel 0 0 true)) 0xD011
    (fun t => t.pixel 0 0 && t.pixel 57 0 && t.pixel 63 0 && !t.pixel 56 0 && !t.pixel 1 0 && t.v[(15 : Reg)] == 0#8) = true := by
  decide

/-- V-K1, V-K3. -/
theorem test_skp : runs ((regs [(2, 5#8)]).setKeyFlags 0x0020#16) 0xE29E (fun t => t.pc == 0x204#16) &&
    runs ((regs [(2, 0x10#8)]).setKeyFlags 0xFFFF#16) 0xE29E (faulted 0x200#16 .invalidKeyIndex 4#3 0xE29E#16 0x0010#16) = true := by
  decide

/-- V-K4, V-K6. -/
theorem test_sknp : runs (regs [(2, 5#8)]) 0xE2A1 (fun t => t.pc == 0x204#16) &&
    runs (regs [(2, 0xFF#8)]) 0xE2A1 (faulted 0x200#16 .invalidKeyIndex 4#3 0xE2A1#16 0x00FF#16) = true := by decide

/-- V-K8: the wait holds. -/
theorem test_ldVxK_holds : runs ((regs [(3, 0x77#8)]).setPc 0x210#16) 0xF30A
    (fun t => decide (cpuNext t = ((regs [(3, 0x77#8)]).setPc 0x210#16).withFetchWord 16 0xF30A)) = true := by decide

/-- V-K9: the lowest key. -/
theorem test_ldVxK_takes : runs (((regs [(3, 0x77#8)]).setPc 0x210#16).setKeyFlags 0x0090#16) 0xF30A
    (fun t => t.v[(3 : Reg)] == 4#8 && t.pc == 0x212#16) = true := by decide

/-- V-K12. -/
theorem test_ldVxDt : runs (State.reset.setDelay 0x3C#8) 0xF507 (fun t => t.v[(5 : Reg)] == 0x3C#8) = true := by decide

/-- V-K13. -/
theorem test_ldDtVx : runs ((regs [(0, 0x3C#8)]).setDelay 5#8) 0xF015 (fun t => t.dt == 0x3C#8) = true := by decide

/-- V-K14. -/
theorem test_ldStVx : runs (regs [(1, 2#8)]) 0xF118 (fun t => t.st == 2#8 && t.soundOn) = true := by decide

/-- V-T1, V-T2, V-T5. -/
theorem test_timerTick : ((State.reset.setDelay 5#8).timerTick.dt == 4#8) && ((State.reset.setDelay 5#8).timerTick.st == 0#8) &&
    !((State.reset.setDelay 1#8).setSound 1#8).timerTick.soundOn &&
    decide (State.timerTick { State.reset with halted := true, dt := 5#8 } = { State.reset with halted := true, dt := 5#8 }) = true := by
  decide

/-- V-R1: the image at 0x200, zeros after it, the font below. -/
theorem test_reset_image : (State.reset.resetWith [0x12#8, 0x00#8] Framebuffer.allOff).mem.load 0x1FF 4 =
    [0#8, 0x12#8, 0x00#8, 0#8] ∧ (State.reset.resetWith [0x12#8, 0x00#8] Framebuffer.allOff).mem.load 0x04B 6 =
    [0xF0#8, 0x80#8, 0xF0#8, 0x80#8, 0x80#8, 0#8] := by decide

/-- V-R2. -/
theorem test_reset_empty : nextIs (step (cpuNext State.reset)) (faulted 0x200#16 .unrecognizedOpcode 1#3 0#16 0#16) = true := by decide

/-- V-R4. -/
theorem test_reset_after_fault : nextIs (step { State.reset with
      halted := true, faultCause := .stackUnderflow, faultPc := 0x200#16, faultOp := 0x00EE#16, mem := [(0x200, 1#8)],
      schedule := [.reset [0x12#8, 0x00#8] Framebuffer.allOff] })
    (fun t => !t.halted && t.faultCause == .none && t.byteAt 0x200 == 0x12#8 && t.schedule == []) = true := by decide

/-- `withFetchWord` places the word for the very next step, also with events waiting. -/
theorem test_withFetchWord : nextIs (step (State.withFetchWord { State.reset with schedule := [.timerTick] } 16 0x6A7F))
    (fun t => t.v[(10 : Reg)] == 0x7F#8 && t.schedule == [.timerTick]) = true := by decide

/-- A coinciding CPU step and timer tick, in either order (R109): `FX07` reads the timer before or after the tick. -/
theorem test_either_order :
    (match takeMoves [.cpuStep, .timerTick] ((State.reset.setDelay 5#8).withFetchWord 16 0xF507) with
      | .next t => t.v[(5 : Reg)] == 5#8 && t.dt == 4#8
      | _ => false) &&
    (match takeMoves [.timerTick, .cpuStep] ((State.reset.setDelay 5#8).withFetchWord 16 0xF507) with
      | .next t => t.v[(5 : Reg)] == 4#8 && t.dt == 4#8
      | _ => false) = true := by decide

/-- With nothing settled a new round of free moves begins (R109), whose last move is a timer tick. -/
theorem test_new_round : State.reset.coming.getLast? = some .timerTick ∧ State.reset.afterTurn.round = 1 := by
  constructor
  · show (roundMoves 0).getLast? = _
    simp [roundMoves, List.getLast?_append, List.getLast?_cons]
  · rfl

theorem reset_inv : State.reset.Inv := by decide

/-! ### Concrete cases that meet the hypotheses of the statements

Each name ends with the statement it serves. -/

/-- The state after reset with one event waiting. -/
def waiting (e : Event) : State := { State.reset with schedule := [e] }

/-- A halted state with one event waiting. -/
def haltedWaiting (e : Event) : State :=
  { State.reset with halted := true, faultCause := .stackUnderflow, faultPc := 0x200#16, schedule := [e] }

/-- One live stack entry, at the bound of the invariant. -/
def oneEntry : State := { State.reset with sp := 1, stack := State.reset.stack.set 0 0x1000#16 }

theorem witness_DecodeInvertsEncode : WellFormed (.drw 15 15 15) = true ∧ WellFormed .cls = true := by decide

theorem witness_EncodeInvertsDecode : decodeWord 0xFF65#16 = .ok (.ldVxMem 15) := by decide

theorem witness_DecoderIsTheOpcodeTable :
    (∃ r ∈ opcodeTable, 0x00EE#16 &&& r.mask = r.value) ∧ decodeWord 0x00EE#16 = .ok .ret ∧
    decodeWord 0x00EF#16 = .error (.unrecognizedOpcode 0x00EF#16) := ⟨⟨⟨"RET", 0xFFFF, 0x00EE⟩, by decide, by decide⟩, by decide⟩

/-- Words that meet the premise of each `Selects` whose row leaves operands open: the last word of the row. -/
theorem witness_Selects : [(0xF000#16, 0x1000#16, 0x1FFF#16), (0xF00F#16, 0x800E#16, 0x8FFE#16), (0xF0FF#16, 0xE0A1#16, 0xEFA1#16),
      (0xFFFF#16, 0x00E0#16, 0x00E0#16)].all (fun p => p.2.2 &&& p.1 == p.2.1) = true := by decide

theorem witness_StepExecutesTheDecodedInstruction :
    let s := (State.reset.setPc 0xFFE#16).placeWord 0x6A7F#16
    s.nextEvent = .cpuStep ∧ s.halted = false ∧ s.pc.toNat ≤ 0xFFE ∧
      decode [s.byteAt s.pc.toNat, s.byteAt (s.pc.toNat + 1)] = .ok (.ldImm 10 0x7F#8, []) := by decide

theorem witness_StepExecutesTheDecodedInstruction_scheduled :
    let s := waiting .timerTick |>.placeWord 0x00E0#16
    s.nextEvent = .cpuStep ∧ s.halted = false ∧ s.pc.toNat ≤ 0xFFE ∧
      decode [s.byteAt s.pc.toNat, s.byteAt (s.pc.toNat + 1)] = .ok (.cls, []) := by decide

theorem witness_FetchIsBigEndian : (State.reset.setPc 0xFFE#16).pc.toNat ≤ 0xFFE ∧ (List.replicate 3580 0#8).length ≤ 3580 :=
  ⟨by decide, by rw [List.length_replicate]⟩

theorem witness_FetchOutOfRangeFaults : [0xFFF#16, 0x1000#16, 0xFFFF#16].all (fun p =>
    (cpuNext (State.reset.setPc p)).nextEvent == .cpuStep && !(cpuNext (State.reset.setPc p)).halted &&
      decide (0xFFF ≤ (cpuNext (State.reset.setPc p)).pc.toNat)) = true := by decide

theorem witness_UnrecognisedWordFaults : (cpuNext State.reset).nextEvent = .cpuStep ∧
    (cpuNext State.reset).halted = false ∧ (cpuNext State.reset).fetch = .ok 0#16 ∧ ∀ r ∈ opcodeTable, 0#16 &&& r.mask ≠ r.value := by decide

/-- One halted state for each clause; the last is a reset with the longest legal image. -/
theorem witness_HaltedCoreIsFrozen :
    ((haltedWaiting .cpuStep).halted = true ∧ (haltedWaiting .cpuStep).nextEvent = .cpuStep) ∧
    (haltedWaiting .timerTick).nextEvent = .timerTick ∧ (haltedWaiting (.setKeys 0xFFFF#16)).nextEvent = .setKeys 0xFFFF#16 ∧
    nextIs (step (haltedWaiting (.reset [] Framebuffer.allOff))) (fun t => !t.halted) = true ∧
    (List.replicate 3584 0#8).length ≤ 3584 := ⟨by decide, by decide, by decide, by decide, by rw [List.length_replicate]⟩

/-- A step that faults after a fetch and one that faults in it. -/
theorem witness_FaultingStepWritesOnlyTheRecord :
    (cpuNext State.reset).nextEvent = .cpuStep ∧ (cpuNext State.reset).halted = false ∧
    nextIs (step (cpuNext State.reset)) State.halted = true ∧ (cpuNext (State.reset.setPc 0xFFF#16)).fetch = .error 0x1000#16 ∧
    nextIs (step (cpuNext (State.reset.setPc 0xFFF#16))) State.halted = true := by decide

/-- An instruction that faults, for each of the six cases. -/
theorem witness_InstructionFaultsAreTheListedOnes :
    nextIs (exec .ret State.reset) State.halted && nextIs (exec (.call 0#12) { State.reset with sp := 16 }) State.halted &&
    nextIs (exec (.skp 2) (regs [(2, 16#8)])) State.halted && nextIs (exec (.sknp 2) (regs [(2, 255#8)])) State.halted &&
    nextIs (exec (.drw 0 0 1) (State.reset.setIndex 0x1000#16)) State.halted &&
    nextIs (exec (.drw 0 0 15) (State.reset.setIndex 0xFF2#16)) State.halted &&
    nextIs (exec (.ldB 0) (State.reset.setIndex 0xFFE#16)) State.halted &&
    nextIs (exec (.ldMemVx 15) (State.reset.setIndex 0xFF1#16)) State.halted &&
    nextIs (exec (.ldVxMem 0) (State.reset.setIndex 0x1000#16)) State.halted = true := by decide

/-- The first and the last used entry, and the empty stack. -/
theorem witness_ReturnJumpsToThePoppedEntry : ({ State.reset with sp := 1 } : State).sp = (0 : Fin 16).succ ∧
    ({ State.reset with sp := 16 } : State).sp = (15 : Fin 16).succ ∧ State.reset.sp = 0 := by decide

theorem witness_JumpGoesToItsAddress : State.reset.pc.toNat = (0x200#12).toNat ∧ (0xFFF#12 : Addr) = 0xFFF#12 := by decide

theorem witness_CallPushesTheFollowingAddress : State.reset.sp = (0 : Fin 16).castSucc ∧
    ({ State.reset with sp := 15 } : State).sp = (15 : Fin 16).castSucc ∧ ({ State.reset with sp := 16 } : State).sp = 16 := by decide

/-- A taken skip at the last two fetch addresses that the clause names, and words of the two unrecognised groups. -/
theorem witness_SkipsOnImmediate_and_Registers :
    (State.reset.setPc 0xFFC#16).pc = 0xFFC#16 ∧ (State.reset.setPc 0xFFE#16).pc = 0xFFE#16 ∧
    ((regs [(0, 7#8)]).v[(0 : Reg)]).toNat = (7#8).toNat ∧ (0x5121#16).toNat / 4096 = 5 ∧ (0x5121#16).toNat % 16 ≠ 0 ∧
    (0x912F#16).toNat / 4096 = 9 ∧ (0x912F#16).toNat % 16 ≠ 0 := by decide

/-- The call, and a later state with the stack as the call left it. -/
theorem witness_ReturnUndoesCall : ∃ t : State, State.reset.halted = false ∧ exec (.call 0x300#12) State.reset = .next t ∧
    t.halted = false ∧ (t.setIndex 0x123#16).stack = t.stack ∧ (t.setIndex 0x123#16).sp = t.sp := ⟨_, rfl, rfl, rfl, rfl, rfl⟩

theorem witness_RandomByteIsMasked : (0x0F#8).getLsbD 7 = false := by decide

theorem witness_GlyphAddressIsLoaded : ∃ t, exec (.ldF 4) (regs [(4, 0x0A#8)]) = .next t := ⟨_, rfl⟩

/-- The last index with room for three digits and the first without. -/
theorem witness_DecimalDigitsAreStored : (State.reset.setIndex 0xFFD#16).i.toNat + 2 ≤ 0xFFF ∧
    (State.reset.setIndex 0xFFE#16).i.toNat + 2 > 0xFFF := by decide

/-- The last index with room for sixteen registers and the first without. -/
theorem witness_RegistersAreStored : (State.reset.setIndex 0xFF0#16).i.toNat + (15 : Reg).val ≤ 0xFFF ∧
    (State.reset.setIndex 0xFF1#16).i.toNat + (15 : Reg).val > 0xFFF := by decide

/-- The same for one register. -/
theorem witness_RegistersAreLoaded : (State.reset.setIndex 0xFFF#16).i.toNat + (0 : Reg).val ≤ 0xFFF ∧
    (State.reset.setIndex 0x1000#16).i.toNat + (0 : Reg).val > 0xFFF := by decide

theorem witness_StoreThenLoadRestoresRegisters : ∃ t, (State.reset.setIndex 0xFF0#16).i.toNat + (15 : Reg).val ≤ 0xFFF ∧
    exec (.ldMemVx 15) (State.reset.setIndex 0xFF0#16) = .next t := ⟨_, by decide, rfl⟩

/-- The last `pc` of the statement; a store of both bytes of the next word (V-M22), of its second byte only, and the last index
for `FX33`, which stores both bytes of the last word. -/
theorem witness_StoreIsSeenByTheNextFetch :
    (State.reset.setPc 0xFFC#16).pc.toNat + 3 ≤ 0xFFF ∧ (State.reset.setIndex 0xFF0#16).i.toNat + (15 : Reg).val ≤ 0xFFF ∧
    (State.reset.setIndex 0xFFD#16).i.toNat + 2 ≤ 0xFFF ∧
    ((regs [(0, 0x12#8), (1, 2#8)]).setIndex 0x202#16).byteAfterRegs 1 0x203 = 2#8 ∧
    ((regs [(0, 0x12#8)]).setIndex 0x203#16).byteAfterRegs 0 0x202 = 0#8 ∧
    ((regs [(0, 0x9C#8)]).setIndex 0xFFD#16).byteAfterDigits 0 0xFFF = 6 := by decide

/-- No rows above the top of memory, the last legal range, the first illegal one; a set bit on a lit pixel and one on a
pixel that is off. -/
theorem witness_SpriteIsDrawnByExclusiveOr :
    ((0 : Nat) = 0 ∨ (State.reset.setIndex 0x1000#16).i.toNat + 0 - 1 ≤ 0xFFF) ∧
    (State.reset.setIndex 0xFF1#16).i.toNat + 15 - 1 ≤ 0xFFF ∧ (1 ≤ 15 ∧ (State.reset.setIndex 0xFF2#16).i.toNat + 15 - 1 > 0xFFF) ∧
    (State.reset.spriteCovers 0 1 5 0 0 = true ∧
      (State.reset.setSurface (State.reset.fb.setPixel 0 0 true)).pixel 0 0 = true) ∧
    State.reset.pixel 0 0 = false := by decide

/-- Three draws of glyph 0 on a blank surface (S6, V-D2 to V-D4). -/
theorem witness_RedrawingErasesTheSprite : ∃ t u w, (0 : Reg) ≠ 15 ∧ (1 : Reg) ≠ 15 ∧ State.reset.i.toNat + 5 - 1 ≤ 0xFFF ∧
    exec (.drw 0 1 5) State.reset = .next t ∧ exec (.drw 0 1 5) t = .next u ∧ exec (.drw 0 1 5) u = .next w ∧
    ∀ px < 64, ∀ py < 32, State.reset.spriteCovers 0 1 5 px py = true → State.reset.pixel px py = false :=
  ⟨_, _, _, by decide, by decide, by decide, rfl, rfl, rfl, fun px _ py _ _ => by
    have : py < 32 := by assumption
    simp only [State.pixel, Framebuffer.getPixel, State.reset, Framebuffer.allOff]
    rw [dif_pos this]
    simp⟩

/-- The last key number and the first that is none. -/
theorem witness_KeyTestsFollowTheKeyFlag : ((regs [(2, 15#8)]).v[(2 : Reg)]).toNat ≤ 15 ∧
    ((regs [(2, 16#8)]).v[(2 : Reg)]).toNat > 15 := by decide

theorem witness_KeyWaitHoldsOrTakesTheLowestKey : State.reset.keys = 0#16 ∧ (State.reset.setKeyFlags 0x8000#16).keys ≠ 0#16 := by
  decide

/-- After `FX15` two ticks, another instruction and a key change, then `FX07`. -/
theorem witness_TimerAccessMovesAByte : ∃ t u w, exec (.ldDtVx 0) (regs [(0, 5#8)]) = .next t ∧ DelayRun t 2 u ∧
    exec (.ldVxDt 1) u = .next w :=
  ⟨_, _, _, rfl,
    .keys 1#16 (.instr (.ldImm 3 1#8) (.tick (.tick .start rfl) rfl) rfl (fun _ h => (nomatch h)) rfl), rfl⟩

theorem witness_TimerAccessMovesAByte_sound : ∃ t, State.reset.halted = false ∧ exec (.ldStVx 1) State.reset = .next t :=
  ⟨_, rfl, rfl⟩

theorem witness_TickDecrementsBothTimers : (waiting .timerTick).halted = false ∧ (waiting .timerTick).nextEvent = .timerTick := by
  decide

/-- No listed move, and the longest image a listed reset may have. -/
theorem witness_BothAgentsMoveForever : (∀ e ∈ State.reset.schedule, e.launchable = true) ∧
    ∀ e ∈ (waiting (.reset (List.replicate 3584 0#8) Framebuffer.allOff)).schedule, e.launchable = true := by
  refine ⟨by decide, fun e he => ?_⟩
  obtain rfl : e = .reset (List.replicate 3584 0#8) Framebuffer.allOff := List.mem_singleton.mp he
  simp only [Event.launchable, List.length_replicate]
  decide

/-- A change of each piece of state by one of its writers. -/
theorem witness_EachPieceOfStateHasItsWriters :
    nextIs (exec (.ldI 1#12) State.reset) (fun t => t.i != State.reset.i) &&
    nextIs (exec (.ldDtVx 1) (regs [(1, 1#8)])) (fun t => t.dt != 0#8) &&
    nextIs (exec (.ldStVx 1) (regs [(1, 1#8)])) (fun t => t.st != 0#8) &&
    nextIs (exec (.call 0#12) State.reset) (fun t => t.stack != State.reset.stack && t.sp != 0) &&
    nextIs (exec (.ldB 1) ((regs [(1, 255#8)]).setIndex 0x300#16)) (fun t => t.mem != State.reset.mem) &&
    nextIs (exec (.ldMemVx 1) ((regs [(1, 255#8)]).setIndex 0x300#16)) (fun t => t.mem != State.reset.mem) &&
    nextIs (exec (.drw 0 0 5) State.reset) (fun t => t.pixel 0 0 != State.reset.pixel 0 0 && t.presentCount != 0) &&
    nextIs (exec (.rnd 0 0#8) State.reset) (fun t => t.randIndex != 0) = true := by decide

/-- A destination, a loaded register and the flag. -/
theorem witness_RegistersChangeOnlyAsDestinationOrFlag :
    nextIs (exec (.ldImm 3 1#8) State.reset) (fun t => t.v[(3 : Reg)] != 0#8) &&
    nextIs (exec (.ldVxMem 15) State.reset) (fun t => t.v[(15 : Reg)] != 0#8) &&
    nextIs (exec (.sub 0 1) State.reset) (fun t => t.v[(15 : Reg)] != 0#8) = true := by decide

/-- One instruction for each class of the next `PC`. -/
theorem witness_NextPcIsOneOfItsClasses :
    nextIs (exec .ret State.reset) (fun t => t.halted && t.pc == 0x200#16) &&
    nextIs (exec .ret { State.reset with sp := 1, stack := State.reset.stack.set 0 0x206#16 }) (fun t => t.pc == 0x206#16) &&
    nextIs (exec (.call 0xABC#12) State.reset) (fun t => t.pc == 0xABC#16) &&
    nextIs (exec (.jpV0 0xFFF#12) (regs [(0, 255#8)])) (fun t => t.pc == 0x10FE#16) &&
    nextIs (exec (.ldVxK 0) State.reset) (fun t => t.pc == 0x200#16) &&
    nextIs (exec (.sknp 0) State.reset) (fun t => t.pc == 0x204#16) &&
    nextIs (exec (.skp 0) State.reset) (fun t => t.pc == 0x202#16) = true := by decide

/-- An instruction that leaves `ST` alone and the one that writes it. -/
theorem witness_NoInstructionReadsTheSoundTimer : (∃ t, exec .cls State.reset = .next t) ∧ (∀ x, Instr.cls ≠ .ldStVx x) ∧
    ∃ t x, exec (.ldStVx 1) State.reset = .next t ∧ Instr.ldStVx 1 = .ldStVx x :=
  ⟨⟨_, rfl⟩, fun _ h => (nomatch h), ⟨_, 1, rfl, rfl⟩⟩

theorem witness_TickCommutesWithUntimedInstructions : ∃ t, State.reset.halted = false ∧
    (∀ x, Instr.ldImm 1 2#8 ≠ .ldVxDt x ∧ Instr.ldImm 1 2#8 ≠ .ldDtVx x ∧ Instr.ldImm 1 2#8 ≠ .ldStVx x) ∧
    exec (.ldImm 1 2#8) State.reset = .next t ∧ t.halted = false :=
  ⟨_, rfl, fun _ => ⟨fun h => (nomatch h), fun h => (nomatch h), fun h => (nomatch h)⟩, rfl, rfl⟩

/-- A step from a state with the invariant, running and halted; a live stack entry at its bound. -/
theorem witness_EveryMoveKeepsTheInvariant : State.reset.Inv ∧ nextIs (step (cpuNext State.reset)) (fun _ => true) = true ∧
    (cpuNext State.reset).Inv ∧
    oneEntry.Inv ∧ (haltedWaiting .cpuStep).Inv ∧ nextIs (step (haltedWaiting .cpuStep)) (fun _ => true) = true :=
  ⟨by decide, by decide, by decide, by decide, by decide, by decide⟩

/-- An empty image and the longest legal one; an address of the image, of the font and of neither. -/
theorem witness_ResetRebuildsEverything :
    (haltedWaiting (.reset [0x12#8] Framebuffer.allOff)).nextEvent = .reset [0x12#8] Framebuffer.allOff ∧
    ([] : List Byte).length ≤ 3584 ∧ (List.replicate 3584 0#8).length ≤ 3584 ∧
    (0x200 ≤ 0x200 ∧ 0x200 < 0x200 + [0x12#8].length) ∧ 79 < 80 ∧ ¬(80 < 80) :=
  ⟨by decide, by decide, by rw [List.length_replicate], by decide, by decide, by decide⟩

theorem witness_FirstFetchReadsTheImage : (List.replicate 3582 0#8).length ≤ 3582 := by rw [List.length_replicate]

theorem witness_KeyFlagsAreDrivenFromOutside : (waiting (.setKeys 0xFFFF#16)).nextEvent = .setKeys 0xFFFF#16 := by decide

theorem witness_CountdownTakesAsManyTicksAsItsValue : State.reset.halted = false := by decide

/-- An image one byte too long, refused. -/
theorem witness_EveryMoveAnswersOrIsAnOverlongReset :
    3584 < (List.replicate 3585 0#8).length ∧
    step (waiting (.reset (List.replicate 3585 0#8) Framebuffer.allOff)) = .refused .romTooLong := by
  have refuse : ∀ rom : List Byte, 3584 < rom.length →
      step (waiting (.reset rom Framebuffer.allOff)) = .refused .romTooLong := fun rom h => if_neg (Nat.not_le.mpr h)
  have h : 3584 < (List.replicate 3585 0#8).length := by rw [List.length_replicate]; decide
  exact ⟨h, refuse _ h⟩

end Sys2Proof.Tests
end

section
/-! SUPPORT. What one instruction can do, said once: it transfers control, takes a fault, holds, skips, or makes one change to
the data and advances. The rules of spec/10_state.md about who writes what are read off this case analysis. -/

namespace Sys2Proof

/-- The register destination of the fourteen instructions that have one (R21). -/
def Instr.destination : Instr → Option Reg
  | .ldImm x _ | .addImm x _ | .rnd x _ | .ldReg x _ | .or x _ | .and x _ | .xor x _ | .add x _ | .sub x _ | .shr x _
  | .subn x _ | .shl x _ | .ldVxDt x | .ldVxK x => some x
  | _ => none

/-- The five instructions that write a result and then its flag (R22, R23). -/
def Instr.hasResultFlag : Instr → Bool
  | .add _ _ | .sub _ _ | .shr _ _ | .subn _ _ | .shl _ _ => true
  | _ => false

/-- The six conditional skips (R124 to R127, R191, R192). -/
def Instr.isSkip : Instr → Bool
  | .seImm _ _ | .sneImm _ _ | .seReg _ _ | .sneReg _ _ | .skp _ | .sknp _ => true
  | _ => false

/-- The four instructions that put something else than a sum with `pc` into `PC` (R25). -/
def Instr.isTransfer : Instr → Bool
  | .ret | .jp _ | .call _ | .jpV0 _ => true
  | _ => false

variable {i : Instr}

theorem Instr.eq_of_destination {x : Reg} (h : i.destination = some x) :
    ∃ nn y, i = .ldImm x nn ∨ i = .addImm x nn ∨ i = .rnd x nn ∨ i = .ldReg x y ∨ i = .or x y ∨ i = .and x y ∨
      i = .xor x y ∨ i = .add x y ∨ i = .sub x y ∨ i = .shr x y ∨ i = .subn x y ∨ i = .shl x y ∨ i = .ldVxDt x ∨
      i = .ldVxK x := by
  cases i <;> simp_all [Instr.destination]

theorem Instr.eq_of_hasResultFlag (h : i.hasResultFlag = true) :
    ∃ x y, i = .add x y ∨ i = .sub x y ∨ i = .shr x y ∨ i = .subn x y ∨ i = .shl x y := by
  cases i <;> simp_all [Instr.hasResultFlag]

theorem Instr.eq_of_isSkip (h : i.isSkip = true) :
    ∃ x y nn, i = .seImm x nn ∨ i = .sneImm x nn ∨ i = .seReg x y ∨ i = .sneReg x y ∨ i = .skp x ∨ i = .sknp x := by
  cases i <;> simp_all [Instr.isSkip]

theorem Instr.ne_of_not_transfer (h : i.isTransfer = false) :
    i ≠ .ret ∧ ∀ nnn, i ≠ .jp nnn ∧ i ≠ .call nnn ∧ i ≠ .jpV0 nnn := by
  cases i <;> simp_all [Instr.isTransfer]

theorem Instr.not_transfer_of_isSkip (h : i.isSkip = true) : i.isTransfer = false := by
  cases i <;> simp_all [Instr.isSkip, Instr.isTransfer]

theorem Instr.not_transfer_of_destination {x : Reg} (h : i.destination = some x) : i.isTransfer = false := by
  cases i <;> simp_all [Instr.destination, Instr.isTransfer]

end Sys2Proof

namespace Sys2Proof.Machine

/-- The change an instruction that advances makes to the data of `s`: registers, `I`, timers, memory, surface, counters. Not said
are the byte a destination register gets, the flag, and what a sprite leaves on the surface. -/
inductive DataStep (s : State) : Instr → State → Prop where
  | load {i : Instr} {x : Reg} (hx : i.destination = some x) (b : Byte) : DataStep s i (s.setReg x b)
  | random (x : Reg) (nn b : Byte) : DataStep s (.rnd x nn) (s.setReg x b).drawRandom
  | result {i : Instr} {x : Reg} (hx : i.destination = some x) (hf : i.hasResultFlag = true) (b : Byte) (f : Bool) :
      DataStep s i (s.setResultThenFlag x b f)
  | clear : DataStep s .cls (s.setSurface Framebuffer.clear)
  | sprite (x y : Reg) (n : Nat) (fb : Framebuffer) (f : Bool) :
      DataStep s (.drw x y n) ((s.setSurface fb).setFlag f).present
  | index (nnn : Addr) : DataStep s (.ldI nnn) (s.setIndex (zextAddr nnn))
  | indexSum (x : Reg) (f : Bool) : DataStep s (.addI x)
      ((s.setIndex (BitVec.ofNat 16 ((s.i.toNat + (s.reg x).toNat) % Config.memSize))).setFlag f)
  | glyph (x : Reg) : DataStep s (.ldF x) (s.setIndex (glyphAddress (s.reg x)))
  | digits (x : Reg) : DataStep s (.ldB x) (s.setMem (s.mem.store (s.ea 0) (decimalDigits (s.reg x))))
  | storeRegs (x : Reg) : DataStep s (.ldMemVx x) (s.setMem (s.mem.store (s.ea 0) (s.regsUpTo x)))
  | loadRegs (x : Reg) : DataStep s (.ldVxMem x) (s.setRegs (loadRegs s.mem (s.ea 0) (x.val + 1) s.v))
  | delay (x : Reg) : DataStep s (.ldDtVx x) (s.setDelay (s.reg x))
  | sound (x : Reg) : DataStep s (.ldStVx x) (s.setSound (s.reg x))

/-- The ways an instruction ends, with the state it leaves (R25, R106, R107). -/
inductive Effect (s : State) : Instr → State → Prop where
  | fault {i : Instr} {c : FaultCause} (hc : c ≠ .none) (op info : Word) : Effect s i (s.raise c op info)
  | ret {k : Fin 16} (hk : s.sp = k.succ) : Effect s .ret { s with sp := k.castSucc, pc := s.stack[k] }
  | jump (nnn : Addr) : Effect s (.jp nnn) (s.setPc (zextAddr nnn))
  | call (nnn : Addr) {k : Fin 16} (hk : s.sp = k.castSucc) : Effect s (.call nnn)
      { s with stack := s.stack.set k (s.pc + 2#16), sp := k.succ, pc := zextAddr nnn }
  | jumpV0 (nnn : Addr) : Effect s (.jpV0 nnn) (s.setPc (zextAddr nnn + zextByte (s.reg 0)))
  | hold (x : Reg) (hk : s.keys = 0#16) : Effect s (.ldVxK x) s
  | skip {i : Instr} (hi : i.isSkip = true) (c : Bool) : Effect s i (s.skipIf c)
  | advance {i : Instr} {u : State} (h : DataStep s i u) : Effect s i u.advance

/-- An access that checks its range takes a fault or has the effect it has in range (R159). -/
theorem answers_of_rangeCheck {s t : State} {i : Instr} {op : Word} {out : Bool} (h : Effect s i t) :
    ∃ u, (if out then .next (s.raiseRange op) else .next t : Result) = .next u ∧ Effect s i u := by
  cases out with
  | true => exact ⟨_, rfl, .fault (by decide) op _⟩
  | false => exact ⟨_, rfl, h⟩

/-- A key test takes a fault or skips (R191, R192). -/
theorem keySkip_effect {s : State} {i : Instr} (hi : i.isSkip = true) (b : Byte) (down : Bool) (op : Word) :
    Effect s i (keySkip b down op s) := by
  obtain ⟨-, h⟩ | ⟨-, h⟩ := keySkip_cases b down op s
  · rw [h]; exact .fault (by decide) op _
  · rw [h]; exact .skip hi _

theorem execRet_effect (s : State) : ∃ t, execRet s = .next t ∧ Effect s .ret t := by
  obtain ⟨-, h⟩ | ⟨k, hk, h⟩ := execRet_cases s
  · exact ⟨_, h, .fault (by decide) _ _⟩
  · exact ⟨_, h, .ret hk⟩

theorem execCall_effect (nnn : Addr) (s : State) : ∃ t, execCall nnn s = .next t ∧ Effect s (.call nnn) t := by
  obtain ⟨-, h⟩ | ⟨k, hk, h⟩ := execCall_cases nnn s
  · exact ⟨_, h, .fault (by decide) _ _⟩
  · exact ⟨_, h, .call nnn hk⟩

theorem execLdVxK_effect (x : Reg) (s : State) : ∃ t, execLdVxK x s = .next t ∧ Effect s (.ldVxK x) t := by
  unfold execLdVxK
  cases h : lowestKey s.keys with
  | none => exact ⟨_, rfl, .hold x (lowestKey_none h)⟩
  | some k => exact ⟨_, rfl, .advance (.load rfl _)⟩

/-- Every instruction answers a next state, and that state is one of its effects. -/
theorem exec_answers (s : State) : ∀ i : Instr, ∃ t, exec i s = .next t ∧ Effect s i t
  | .cls => ⟨_, rfl, .advance .clear⟩
  | .ret => execRet_effect s
  | .jp nnn => ⟨_, rfl, .jump nnn⟩
  | .call nnn => execCall_effect nnn s
  | .jpV0 nnn => ⟨_, rfl, .jumpV0 nnn⟩
  | .seImm _ _ | .sneImm _ _ | .seReg _ _ | .sneReg _ _ => ⟨_, rfl, .skip rfl _⟩
  | .skp _ | .sknp _ => ⟨_, rfl, keySkip_effect rfl _ _ _⟩
  | .ldImm _ _ | .addImm _ _ | .ldReg _ _ | .or _ _ | .and _ _ | .xor _ _ | .ldVxDt _ => ⟨_, rfl, .advance (.load rfl _)⟩
  | .add _ _ | .sub _ _ | .shr _ _ | .subn _ _ | .shl _ _ => ⟨_, rfl, .advance (.result rfl rfl _ _)⟩
  | .rnd x nn => ⟨_, rfl, .advance (.random x nn _)⟩
  | .drw x y n => answers_of_rangeCheck (.advance (.sprite x y n _ _))
  | .ldI nnn => ⟨_, rfl, .advance (.index nnn)⟩
  | .addI x => ⟨_, rfl, .advance (.indexSum x _)⟩
  | .ldF x => ⟨_, rfl, .advance (.glyph x)⟩
  | .ldB x => answers_of_rangeCheck (.advance (.digits x))
  | .ldMemVx x => answers_of_rangeCheck (.advance (.storeRegs x))
  | .ldVxMem x => answers_of_rangeCheck (.advance (.loadRegs x))
  | .ldVxK x => execLdVxK_effect x s
  | .ldDtVx x => ⟨_, rfl, .advance (.delay x)⟩
  | .ldStVx x => ⟨_, rfl, .advance (.sound x)⟩

/-- What an instruction's next state can be. -/
theorem effect_of_exec {i : Instr} {s t : State} (h : exec i s = .next t) : Effect s i t := by
  obtain ⟨u, hu, he⟩ := exec_answers s i
  obtain rfl : u = t := by rw [hu] at h; injection h
  exact he

/-! ### What a change to the data leaves alone -/

/-- `PC`, the stack, the keys, the fault record and the moves of the agents are not data. -/
theorem DataStep.frame {s u : State} {i : Instr} (h : DataStep s i u) :
    u = { s with v := u.v, i := u.i, dt := u.dt, st := u.st, mem := u.mem, fb := u.fb, presentCount := u.presentCount,
                 randIndex := u.randIndex } := by
  cases h <;> rfl

theorem DataStep.not_transfer {s u : State} {i : Instr} (h : DataStep s i u) : i.isTransfer = false := by
  cases h with
  | load hx | result hx => exact Instr.not_transfer_of_destination hx
  | _ => rfl

/-- Every store keeps the canonical form of memory. -/
theorem DataStep.mem_wf {s u : State} {i : Instr} (h : DataStep s i u) (hs : s.mem.wf = true) : u.mem.wf = true := by
  cases h with
  | digits | storeRegs => exact Memory.wf_store _ _ hs
  | _ => exact hs

end Sys2Proof.Machine
end

section
/-! SUPPORT. The invariant of the machine, kept by every move of every agent. -/

namespace Sys2Proof.Machine

variable {s t u : State} {i : Instr}

@[simp] theorem zextAddr_toNat (nnn : Addr) : (zextAddr nnn).toNat = nnn.toNat :=
  BitVec.toNat_setWidth_of_le (by decide)

/-- The target of `BNNN` is the sum of two numbers: 16 bits hold it (R128). -/
@[simp] theorem zextAddr_add_zextByte_toNat (nnn : Addr) (b : Byte) :
    (zextAddr nnn + zextByte b).toNat = nnn.toNat + b.toNat := by
  have hb : (zextByte b).toNat = b.toNat := BitVec.toNat_setWidth_of_le (by decide)
  have := nnn.isLt
  have := b.isLt
  rw [BitVec.toNat_add, zextAddr_toNat, hb, Nat.mod_eq_of_lt (by omega)]

/-- The last glyph starts at 75 (R60). -/
theorem glyphAddress_le (b : Byte) : (glyphAddress b).toNat ≤ 75 := by
  have hn : (b &&& 0x0F#8).toNat ≤ 15 := by rw [BitVec.toNat_and]; exact Nat.and_le_right
  calc (glyphAddress b).toNat ≤ 0 + 5 * (b &&& 0x0F#8).toNat := by
        rw [glyphAddress, BitVec.toNat_ofNat]; exact Nat.mod_le _ _
    _ ≤ 75 := by omega

/-- Each write of `I` leaves it a 12-bit address (R27). -/
theorem DataStep.index_le (h : DataStep s i u) (hs : s.i.toNat ≤ 0xFFF) : u.i.toNat ≤ 0xFFF := by
  cases h with
  | index nnn =>
    have := nnn.isLt
    simp only [State.setIndex_i, zextAddr_toNat]
    omega
  | indexSum x =>
    have : (s.i.toNat + (s.reg x).toNat) % Config.memSize < 4096 := Nat.mod_lt _ (by decide)
    simp only [State.setFlag_i, State.setIndex_i, BitVec.toNat_ofNat]
    omega
  | glyph x =>
    have := glyphAddress_le (s.reg x)
    simp only [State.setIndex_i]
    omega
  | _ => exact hs

/-! ### The invariant -/

/-- Fault entry keeps the invariant: the record gets a cause and the `PC` that stays (R221). -/
theorem State.Inv.raise (h : s.Inv) {c : FaultCause} (hc : c ≠ .none) (op info : Word) : (s.raise c op info).Inv := by
  obtain ⟨hmem, hi, hpc, hstack, -, -⟩ := h
  exact ⟨hmem, hi, hpc, hstack, fun hr => by simp at hr, fun _ => ⟨hc, rfl⟩⟩

/-- A running core keeps the invariant under a new `PC` of at most 0x10FE (R25). -/
theorem State.Inv.setPc (h : s.Inv) (hr : s.halted = false) {w : Word} (hw : w.toNat ≤ 0x10FE) : (s.setPc w).Inv := by
  obtain ⟨hmem, hi, -, hstack, hrun, -⟩ := h
  exact ⟨hmem, hi, hw, hstack, hrun, fun hh => by simp [hr] at hh⟩

/-- A change to the data keeps memory canonical and `I` small, and touches nothing else of the invariant. -/
theorem State.Inv.dataStep (h : s.Inv) (hd : DataStep s i u) : u.Inv := by
  have hmem := hd.mem_wf h.1
  have hi := hd.index_le h.2.1
  obtain ⟨-, -, hrest⟩ := h
  rw [hd.frame]
  exact ⟨hmem, hi, hrest⟩

/-- A return goes to a live entry and leaves the entries below it live. -/
theorem State.Inv.popped (h : s.Inv) (hr : s.halted = false) {k : Fin 16} (hk : s.sp = k.succ) :
    ({ s with sp := k.castSucc, pc := s.stack[k] } : State).Inv := by
  obtain ⟨hmem, hi, -, hstack, hrun, -⟩ := h
  have hsp : s.sp.val = k.val + 1 := by rw [hk]; rfl
  have hentry := hstack k (by omega)
  refine ⟨hmem, hi, by simp only; omega, fun j hj => hstack j ?_, hrun, fun hh => by simp [hr] at hh⟩
  have : j.val < k.val := hj
  omega

/-- A call writes one live entry, the address after the call: at most 0x1000 when the call was fetched (R123). -/
theorem State.Inv.pushed (h : s.Inv) (hr : s.halted = false) {k : Fin 16} (hk : s.sp = k.castSucc) {w target : Word}
    (hw : w.toNat ≤ 0x1000) (ht : target.toNat ≤ 0x10FE) :
    ({ s with stack := s.stack.set k w, sp := k.succ, pc := target } : State).Inv := by
  obtain ⟨hmem, hi, -, hstack, hrun, -⟩ := h
  have hsp : s.sp.val = k.val := by rw [hk]; rfl
  refine ⟨hmem, hi, ht, fun j hj => ?_, hrun, fun hh => by simp [hr] at hh⟩
  have hj : j.val < k.val + 1 := hj
  simp only [Fin.getElem_fin, Vector.getElem_set]
  split
  · exact hw
  · exact hstack j (by omega)

/-- An instruction fetched in range keeps the invariant. -/
theorem State.Inv.effect (h : s.Inv) (hr : s.halted = false) (hpc : s.pc.toNat ≤ 0xFFE) (he : Effect s i t) : t.Inv := by
  have hsum : ∀ w : Word, (s.pc + w).toNat ≤ s.pc.toNat + w.toNat := fun w => by
    rw [BitVec.toNat_add]; exact Nat.mod_le _ _
  have h2 : (s.pc + 2#16).toNat ≤ s.pc.toNat + 2 := hsum 2#16
  have h4 : (s.pc + 4#16).toNat ≤ s.pc.toNat + 4 := hsum 4#16
  cases he with
  | fault hc op info => exact h.raise hc op info
  | ret hk => exact h.popped hr hk
  | jump nnn =>
    have := nnn.isLt
    exact h.setPc hr (by rw [zextAddr_toNat]; omega)
  | call nnn hk =>
    have := nnn.isLt
    exact h.pushed hr hk (by omega) (by rw [zextAddr_toNat]; omega)
  | jumpV0 nnn =>
    have := nnn.isLt
    have := (s.reg 0).isLt
    exact h.setPc hr (by rw [zextAddr_add_zextByte_toNat]; omega)
  | hold => exact h
  | skip _ c => exact h.setPc hr (by split <;> omega)
  | @advance _ u hd =>
    have hu : u.pc = s.pc := by rw [hd.frame]
    exact (h.dataStep hd).setPc (by rw [hd.frame]; exact hr) (by rw [hu]; omega)

/-- A fetch that succeeds is in range (R51, R102). -/
theorem State.pc_le_of_fetch_ok {op : Word} (h : s.fetch = .ok op) : s.pc.toNat ≤ 0xFFE := by
  by_contra hpc
  rw [s.fetch_error (by omega)] at h
  cases h

theorem State.Inv.cpuStep (h : s.Inv) (ht : cpuStep s = .next t) : t.Inv := by
  cases hr : s.halted with
  | true =>
    rw [cpuStep_halted hr] at ht
    cases ht
    exact h
  | false =>
    obtain ⟨a, -, hc⟩ | ⟨op, r, -, -, hc⟩ | ⟨op, i, hf, -, hc⟩ := cpuStep_cases hr <;> rw [hc] at ht
    · cases ht
      exact h.raise (by decide) _ _
    · cases ht
      exact h.raise (by decide) _ _
    · exact h.effect hr (State.pc_le_of_fetch_ok hf) (effect_of_exec ht)

theorem State.Inv.timerTick (h : s.Inv) : s.timerTick.Inv := by
  unfold State.timerTick
  split <;> exact h

/-- Reset gives the invariant whatever the state was, for any image and any surface (R41). -/
theorem State.resetWith_inv (s : State) (rom : List Byte) (f : Framebuffer) : (s.resetWith rom f).Inv :=
  ⟨s.resetWith_mem_wf rom f, Nat.zero_le _, (by decide : 0x200 ≤ 0x10FE), fun _ hj => absurd hj (Nat.not_lt_zero _),
    fun _ => ⟨rfl, rfl, rfl, rfl⟩, fun hh => nomatch hh⟩

/-- Every move of every agent keeps the invariant. -/
theorem State.Inv.agentStep (h : s.Inv) (e : Event) (ht : agentStep e s = .next t) : t.Inv := by
  cases e with
  | cpuStep => exact h.cpuStep ht
  | timerTick =>
    cases ht
    exact h.timerTick
  | setKeys k =>
    cases ht
    exact h
  | reset rom f =>
    simp only [Machine.agentStep] at ht
    split at ht <;> cases ht
    exact s.resetWith_inv rom f

/-- Settles O52: taking a move off the list changes nothing the invariant speaks of, and each agent's move keeps it. -/
theorem everyMoveKeepsTheInvariant : Obligations.EveryMoveKeepsTheInvariant := by
  intro s t h ht
  have hturn : s.afterTurn.Inv := h
  exact hturn.agentStep s.nextEvent ht

/-- Settles O53: `State.reset` is what a reset move with an empty image leaves. -/
theorem resetHasTheInvariant : Obligations.ResetHasTheInvariant := by
  have h := State.reset.resetWith_inv [] Framebuffer.allOff
  rwa [State.reset_eq_resetWith] at h

end Sys2Proof.Machine
end

section
/-! SUPPORT. Who writes what (spec/10_state.md): the pieces of state, the registers and `PC`, read off the effect of an
instruction. -/

namespace Sys2Proof.Machine

variable {s t u : State} {i : Instr}

/-! ### The pieces of state outside the registers -/

/-- An instruction other than `RET` and `CALL` leaves the stack and its pointer alone. -/
theorem Effect.stack_writers (h : Effect s i t) :
    (t.stack ≠ s.stack → ∃ nnn, i = .call nnn) ∧ (t.sp ≠ s.sp → i = .ret ∨ ∃ nnn, i = .call nnn) := by
  cases h with
  | ret => simp
  | call => simp
  | advance hd => rw [hd.frame]; simp
  | _ => simp

/-- Keys and the coming moves of the agents are no instruction's to write (R34, R109). -/
theorem Effect.outside_unchanged (h : Effect s i t) : t.keys = s.keys ∧ t.schedule = s.schedule ∧ t.round = s.round := by
  cases h with
  | advance hd => rw [hd.frame]; exact ⟨rfl, rfl, rfl⟩
  | _ => exact ⟨rfl, rfl, rfl⟩

/-- An effect changes data only as the change before an advance does. -/
theorem Effect.data_cases (h : Effect s i t) :
    (t.v = s.v ∧ t.i = s.i ∧ t.dt = s.dt ∧ t.st = s.st ∧ t.mem = s.mem ∧ t.fb = s.fb ∧
      t.presentCount = s.presentCount ∧ t.randIndex = s.randIndex) ∨
    ∃ u, DataStep s i u ∧ t = u.advance := by
  cases h with
  | advance hd => exact .inr ⟨_, hd, rfl⟩
  | _ => exact .inl ⟨rfl, rfl, rfl, rfl, rfl, rfl, rfl, rfl⟩

theorem DataStep.writers (h : DataStep s i u) :
    (u.i ≠ s.i → (∃ nnn, i = .ldI nnn) ∨ (∃ x, i = .addI x) ∨ ∃ x, i = .ldF x) ∧
    (u.dt ≠ s.dt → ∃ x, i = .ldDtVx x) ∧ (u.st ≠ s.st → ∃ x, i = .ldStVx x) ∧
    (u.mem ≠ s.mem → (∃ x, i = .ldB x) ∨ ∃ x, i = .ldMemVx x) ∧
    (u.fb ≠ s.fb → i = .cls ∨ ∃ x y n, i = .drw x y n) ∧
    (u.presentCount ≠ s.presentCount → ∃ x y n, i = .drw x y n) ∧
    (u.randIndex ≠ s.randIndex → ∃ x nn, i = .rnd x nn) := by
  cases h <;> simp

/-- `FX33` stores three bytes from `I` up. -/
theorem DataStep.byteAt_outside_digits {x : Reg} (h : DataStep s (.ldB x) u) {a : Nat}
    (ha : a < s.i.toNat ∨ s.i.toNat + 2 < a) : u.byteAt a = s.byteAt a := by
  cases h with
  | load hx | result hx => cases hx
  | digits =>
    have hlen : (decimalDigits (s.reg x)).length = 3 := rfl
    exact Memory.read_store_outside _ _ _ _ (by rw [hlen, State.ea]; omega)

/-- `FX55` stores `X + 1` bytes from `I` up. -/
theorem DataStep.byteAt_outside_regs {x : Reg} (h : DataStep s (.ldMemVx x) u) {a : Nat}
    (ha : a < s.i.toNat ∨ s.i.toNat + x.val < a) : u.byteAt a = s.byteAt a := by
  cases h with
  | load hx | result hx => cases hx
  | storeRegs => exact Memory.read_store_outside _ _ _ _ (by rw [s.regsUpTo_length, State.ea]; omega)

/-- Settles O47: what the data step writes, what is not data, and the range of the two stores. -/
theorem eachPieceOfStateHasItsWriters : Obligations.EachPieceOfStateHasItsWriters := by
  intro i s t hexec
  have h := effect_of_exec hexec
  obtain ⟨hstack, hsp⟩ := h.stack_writers
  obtain ⟨hkeys, hschedule, hround⟩ := h.outside_unchanged
  obtain ⟨-, hi, hdt, hst, hmem, hfb, hpresent, hrand⟩ | ⟨u, hd, rfl⟩ := h.data_cases
  · have hbyte : ∀ a, t.byteAt a = s.byteAt a := fun a => by rw [State.byteAt, hmem, State.byteAt]
    exact ⟨absurd hi, absurd hdt, absurd hst, hstack, hsp, absurd hmem, fun _ a _ _ => hbyte a, fun _ a _ _ => hbyte a,
      absurd hfb, absurd hpresent, absurd hrand, hkeys, hschedule, hround⟩
  · obtain ⟨hi, hdt, hst, hmem, hfb, hpresent, hrand⟩ := hd.writers
    refine ⟨hi, hdt, hst, hstack, hsp, hmem, fun x a hx ha => ?_, fun x a hx ha => ?_, hfb, hpresent, hrand, hkeys,
      hschedule, hround⟩
    · subst hx; exact hd.byteAt_outside_digits ha
    · subst hx; exact hd.byteAt_outside_regs ha

/-! ### The registers -/

/-- A register that a write of another one changes is that other one. -/
theorem State.eq_of_setReg_ne {x j : Reg} {b : Byte} (h : (s.setReg x b).reg j ≠ s.reg j) : j = x := by
  by_contra hj
  rw [s.reg_setReg, if_neg hj] at h
  exact h rfl

/-- A changed register is the destination, one of those `FX65` loads, or `VF` under a flag writer. -/
theorem DataStep.reg_writers (h : DataStep s i u) {j : Reg} (hj : u.reg j ≠ s.reg j) :
    i.destination = some j ∨ (∃ x, i = .ldVxMem x ∧ j ≤ x) ∨
    (j = 15 ∧ (i.hasResultFlag = true ∨ (∃ x y n, i = .drw x y n) ∨ ∃ x, i = .addI x)) := by
  cases h with
  | load hx b =>
    obtain rfl := State.eq_of_setReg_ne hj
    exact .inl hx
  | random x nn b =>
    obtain rfl : j = x := State.eq_of_setReg_ne (s := s) hj
    exact .inl rfl
  | @result _ x hx hf b f =>
    by_cases hjx : j = x
    · exact .inl (hjx ▸ hx)
    · rw [State.reg_setResultThenFlag, if_neg hjx] at hj
      exact .inr (.inr ⟨by_contra fun hvf => hj (if_neg hvf), .inl hf⟩)
  | sprite x y n fb f =>
    exact .inr (.inr ⟨State.eq_of_setReg_ne (s := s.setSurface fb) hj, .inr (.inl ⟨x, y, n, rfl⟩)⟩)
  | indexSum x f =>
    exact .inr (.inr ⟨State.eq_of_setReg_ne (s := s.setIndex _) hj, .inr (.inr ⟨x, rfl⟩)⟩)
  | loadRegs x =>
    refine .inr (.inl ⟨x, rfl, by_contra fun hjx => hj ?_⟩)
    exact (loadRegs_getElem s.mem (s.ea 0) s.v j (x.val + 1)).trans (if_neg (by rw [Fin.le_def] at hjx; omega))
  | _ => exact absurd rfl hj

/-- Settles O48: only the change to the data writes registers, and each form of it writes the listed ones. -/
theorem registersChangeOnlyAsDestinationOrFlag : Obligations.RegistersChangeOnlyAsDestinationOrFlag := by
  intro i s t j hexec hj
  obtain ⟨hv, -⟩ | ⟨u, hd, rfl⟩ := (effect_of_exec hexec).data_cases
  · exact absurd (by rw [hv]) hj
  · obtain hx | hload | ⟨hvf, hflag⟩ := hd.reg_writers hj
    · exact .inl (Instr.eq_of_destination hx)
    · exact .inr (.inl hload)
    · refine .inr (.inr ⟨hvf, ?_⟩)
      obtain hf | ⟨x, y, n, rfl⟩ | ⟨x, rfl⟩ := hflag
      · obtain ⟨x, y, hi⟩ := Instr.eq_of_hasResultFlag hf
        exact ⟨x, y, 0, by tauto⟩
      · exact ⟨x, y, n, by simp⟩
      · exact ⟨x, 0, 0, by simp⟩

/-! ### The program counter -/

/-- Settles O49: one class of R25 for each effect. -/
theorem nextPcIsOneOfItsClasses : Obligations.NextPcIsOneOfItsClasses := by
  intro i s t _ hexec
  cases effect_of_exec hexec with
  | fault => exact .inl ⟨rfl, rfl⟩
  | @ret k hk => exact .inr (.inl ⟨rfl, k, hk, rfl⟩)
  | jump nnn => exact .inr (.inr (.inl ⟨nnn, .inl rfl, zextAddr_toNat nnn⟩))
  | call nnn => exact .inr (.inr (.inl ⟨nnn, .inr rfl, zextAddr_toNat nnn⟩))
  | jumpV0 nnn => exact .inr (.inr (.inr (.inl ⟨nnn, rfl, zextAddr_add_zextByte_toNat nnn _⟩)))
  | hold x hk => exact .inr (.inr (.inr (.inr (.inl ⟨x, rfl, hk, rfl⟩))))
  | skip hi c =>
    cases c with
    | true => exact .inr (.inr (.inr (.inr (.inr (.inl ⟨Instr.eq_of_isSkip hi, rfl⟩)))))
    | false =>
      have hne := Instr.ne_of_not_transfer (Instr.not_transfer_of_isSkip hi)
      exact .inr (.inr (.inr (.inr (.inr (.inr ⟨hne, rfl⟩)))))
  | advance hd =>
    exact .inr (.inr (.inr (.inr (.inr (.inr ⟨Instr.ne_of_not_transfer hd.not_transfer, by rw [hd.frame]; rfl⟩)))))

end Sys2Proof.Machine
end

section
/-! SUPPORT. No instruction reads the sound timer (R29): replacing `ST` commutes with every instruction but `FX18`. -/

namespace Sys2Proof.Machine

/-- The answer with a change made to its next state. -/
def Result.mapNext (f : State → State) : Result → Result
  | .next t => .next (f t)
  | r => r

/-- A range-checked access commutes with a change that its check does not see, when the fault and the access both do. -/
theorem Result.mapNext_rangeCheck {f : State → State} {out : Bool} {a b a' b' : State} (ha : a' = f a) (hb : b' = f b) :
    (if out then .next a' else .next b' : Result) = Result.mapNext f (if out then .next a else .next b) := by
  subst ha hb
  cases out <;> rfl

theorem execRet_setSound (s : State) (b : Byte) :
    execRet (s.setSound b) = Result.mapNext (·.setSound b) (execRet s) := by
  rcases s.sp_empty_or_used with h | ⟨k, h⟩
  · simp only [execRet, s.pop_none h, (s.setSound b).pop_none h]; rfl
  · simp only [execRet, s.pop_some k h, (s.setSound b).pop_some k h]; rfl

theorem execCall_setSound (nnn : Addr) (s : State) (b : Byte) :
    execCall nnn (s.setSound b) = Result.mapNext (·.setSound b) (execCall nnn s) := by
  rcases s.sp_full_or_room with h | ⟨k, h⟩
  · simp only [execCall, s.push_none h, (s.setSound b).push_none h]; rfl
  · simp only [execCall, s.push_some k h, (s.setSound b).push_some k h]; rfl

theorem keySkip_setSound (v : Byte) (down : Bool) (op : Word) (s : State) (b : Byte) :
    keySkip v down op (s.setSound b) = (keySkip v down op s).setSound b := by
  unfold keySkip
  split <;> rfl

theorem execLdVxK_setSound (x : Reg) (s : State) (b : Byte) :
    execLdVxK x (s.setSound b) = Result.mapNext (·.setSound b) (execLdVxK x s) := by
  unfold execLdVxK
  rw [State.setSound_keys]
  cases lowestKey s.keys <;> rfl

/-- With another value in `ST` an instruction other than `FX18` answers the same, with that value. -/
theorem exec_setSound (s : State) (b : Byte) : ∀ i : Instr, (∀ x, i ≠ .ldStVx x) →
    exec i (s.setSound b) = Result.mapNext (·.setSound b) (exec i s)
  | .ret, _ => execRet_setSound s b
  | .call nnn, _ => execCall_setSound nnn s b
  | .skp _, _ | .sknp _, _ => congrArg Host.Outcome.next (keySkip_setSound _ _ _ s b)
  | .ldVxK x, _ => execLdVxK_setSound x s b
  | .drw _ _ _, _ | .ldB _, _ | .ldMemVx _, _ | .ldVxMem _, _ => Result.mapNext_rangeCheck rfl rfl
  | .ldStVx x, h => absurd rfl (h x)
  | .cls, _ | .jp _, _ | .jpV0 _, _ | .seImm _ _, _ | .sneImm _ _, _ | .seReg _ _, _ | .sneReg _ _, _ => rfl
  | .ldImm _ _, _ | .addImm _ _, _ | .ldReg _ _, _ | .or _ _, _ | .and _ _, _ | .xor _ _, _ | .add _ _, _ => rfl
  | .sub _ _, _ | .shr _ _, _ | .subn _ _, _ | .shl _ _, _ | .rnd _ _, _ | .ldI _, _ | .addI _, _ => rfl
  | .ldF _, _ | .ldVxDt _, _ | .ldDtVx _, _ => rfl

/-- Settles O50: `ST` commutes with every other instruction, and `FX18` overwrites it. -/
theorem noInstructionReadsTheSoundTimer : Obligations.NoInstructionReadsTheSoundTimer := by
  intro i s t b h
  refine ⟨fun hi => ?_, ?_⟩
  · have hb := exec_setSound s b i hi
    rw [h] at hb
    exact hb
  · rintro ⟨x, rfl⟩
    exact h

end Sys2Proof.Machine
end

section
/-! SUPPORT. What reset leaves (R41, R250 to R252). -/

namespace Sys2Proof.Machine

/-- Above the font, memory that nothing was written to is zero (R41). -/
theorem Memory.initial_of_le {a : Nat} (h : 80 ≤ a) : Memory.initial a = 0#8 :=
  if_neg fun hfont => Nat.not_lt.2 h hfont.2

/-- Memory after a reset holds the image, the font and zeros (R250, R251). -/
theorem State.resetWith_byteAt (s : State) (rom : List Byte) (f : Framebuffer) (h : rom.length ≤ 3584) (a : Nat) :
    (s.resetWith rom f).byteAt a =
      if 0x200 ≤ a ∧ a < 0x200 + rom.length then rom.getD (a - 0x200) 0#8
      else if a < 80 then State.reset.byteAt a else 0#8 := by
  have hread : (s.resetWith rom f).byteAt a =
      if 0x200 ≤ a ∧ a < 0x200 + rom.length then rom.getD (a - 0x200) 0#8 else Memory.initial a :=
    Memory.read_store rom [] 0x200 a (show 0x200 + rom.length ≤ 4096 by omega)
  rw [hread]
  by_cases ha : a < 80
  · rw [if_pos ha]; rfl
  · rw [if_neg ha, Memory.initial_of_le (by omega)]

/-- A reset move with an image that fits is made (R250, R254). -/
theorem step_of_reset {s : State} {rom : List Byte} {f : Framebuffer} (he : s.nextEvent = .reset rom f)
    (h : rom.length ≤ 3584) : step s = .next (s.afterTurn.resetWith rom f) := by
  rw [step_eq, he]
  exact if_pos h

theorem State.reset_reg (j : Reg) : State.reset.v[j] = 0#8 := by
  simp [State.reset]

/-- Settles O55: the move is `resetWith`, every field but memory is `State.reset`'s or kept. -/
theorem resetRebuildsEverything : Obligations.ResetRebuildsEverything := by
  intro s rom f he h
  exact ⟨_, step_of_reset he h, State.reset_reg, rfl, rfl, rfl, rfl, rfl, rfl, rfl, rfl, rfl, rfl, rfl, rfl, rfl, rfl,
    s.afterTurn.resetWith_byteAt rom f h⟩

/-- Settles O54: the fields of `State.reset` by their definition, its memory by the font table. -/
theorem resetValues : Obligations.ResetValues :=
  ⟨State.reset_reg, rfl, rfl, rfl, rfl, rfl, rfl, rfl, rfl, rfl, rfl, rfl, by decide, by decide, by decide, by decide,
    Memory.initial_of_le (Nat.le_refl _)⟩

end Sys2Proof.Machine
end

section
/-! SUPPORT. Decoding an encoded word (R80 to R86): each field of R82 as a quotient and remainder of the word, and the fields
of the three shapes of word that `encode` lays out. -/

namespace Sys2Proof

/-! ### The fields of a word as numbers (R81, R82) -/

variable (w : Word)

theorem fieldN0_toNat : (fieldN0 w).toNat = w.toNat / 4096 := by
  rw [fieldN0, BitVec.extractLsb'_toNat, Nat.shiftRight_eq_div_pow]
  exact Nat.mod_eq_of_lt (by omega)

theorem fieldN1_toNat : (fieldN1 w).toNat = w.toNat / 256 % 16 := by
  simp [fieldN1, BitVec.extractLsb'_toNat, Nat.shiftRight_eq_div_pow]

theorem fieldN2_toNat : (fieldN2 w).toNat = w.toNat / 16 % 16 := by
  simp [fieldN2, BitVec.extractLsb'_toNat, Nat.shiftRight_eq_div_pow]

theorem fieldN3_toNat : (fieldN3 w).toNat = w.toNat % 16 := by
  simp [fieldN3, BitVec.extractLsb'_toNat]

theorem fieldNN_toNat : (fieldNN w).toNat = w.toNat % 256 := by
  simp [fieldNN, BitVec.extractLsb'_toNat]

theorem fieldNNN_toNat : (fieldNNN w).toNat = w.toNat % 4096 := by
  simp [fieldNNN, BitVec.extractLsb'_toNat]

/-! ### The fields of a word that was laid out from them (R83) -/

section
variable (a x y b : BitVec 4) (nn : Byte) (nnn : Addr)

@[simp] theorem fieldN0_addr : fieldN0 (a ++ nnn : Word) = a :=
  BitVec.eq_of_toNat_eq (by rw [fieldN0_toNat, toNat_word_addr]; omega)

@[simp] theorem fieldNNN_addr : fieldNNN (a ++ nnn : Word) = nnn :=
  BitVec.eq_of_toNat_eq (by rw [fieldNNN_toNat, toNat_word_addr]; omega)

@[simp] theorem fieldN0_regByte : fieldN0 (a ++ x ++ nn : Word) = a :=
  BitVec.eq_of_toNat_eq (by rw [fieldN0_toNat, toNat_word_regByte]; omega)

@[simp] theorem fieldN1_regByte : fieldN1 (a ++ x ++ nn : Word) = x :=
  BitVec.eq_of_toNat_eq (by rw [fieldN1_toNat, toNat_word_regByte]; omega)

@[simp] theorem fieldNN_regByte : fieldNN (a ++ x ++ nn : Word) = nn :=
  BitVec.eq_of_toNat_eq (by rw [fieldNN_toNat, toNat_word_regByte]; omega)

@[simp] theorem fieldN0_nibbles : fieldN0 (a ++ x ++ y ++ b : Word) = a :=
  BitVec.eq_of_toNat_eq (by rw [fieldN0_toNat, toNat_word_nibbles]; omega)

@[simp] theorem fieldN1_nibbles : fieldN1 (a ++ x ++ y ++ b : Word) = x :=
  BitVec.eq_of_toNat_eq (by rw [fieldN1_toNat, toNat_word_nibbles]; omega)

@[simp] theorem fieldN2_nibbles : fieldN2 (a ++ x ++ y ++ b : Word) = y :=
  BitVec.eq_of_toNat_eq (by rw [fieldN2_toNat, toNat_word_nibbles]; omega)

@[simp] theorem fieldN3_nibbles : fieldN3 (a ++ x ++ y ++ b : Word) = b :=
  BitVec.eq_of_toNat_eq (by rw [fieldN3_toNat, toNat_word_nibbles]; omega)

end

@[simp] theorem regOfNibble_nibbleOfReg (x : Reg) : regOfNibble (nibbleOfReg x) = x :=
  Fin.ext (toNat_nibbleOfReg x)

/-! ### Decoding after encoding -/

/-- The decision tree of R86 leads the word of an instruction back to its row and operands: the fields that the tree tests
are the literals of the row, the others are the operands. -/
theorem decodeWord_encode {i : Instr} (h : WellFormed i = true) : decodeWord (encode i) = .ok i := by
  cases i with
  | cls | ret => decide
  | jp | call | ldI | jpV0 => simp [encode, decodeWord]
  | seImm | sneImm | ldImm | addImm | rnd => simp [encode, decodeWord, fieldX]
  | skp | sknp | ldVxDt | ldVxK | ldDtVx | ldStVx | addI | ldF | ldB | ldMemVx | ldVxMem =>
    simp [encode, decodeWord, fieldX]
  | seReg | sneReg | ldReg | or | and | xor | add | sub | shr | subn | shl => simp [encode, decodeWord, fieldX, fieldY]
  | drw x y n =>
    have hn : n < 16 := of_decide_eq_true h
    simp [encode, decodeWord, fieldX, fieldY, fieldN, Nat.mod_eq_of_lt hn]

/-- Settles O3: the two bytes make up the word again, high byte first (R53), and the word decodes to its instruction. -/
theorem decodeInvertsEncode : Obligations.DecodeInvertsEncode := by
  intro i rest h
  rw [encodeBytes, List.cons_append, List.cons_append, List.nil_append, decode, wordOfBytes_high_low, decodeWord_encode h]

end Sys2Proof
end

section
/-! SUPPORT. Instruction fetch in terms of the bytes of memory (R53), on the memory of a reset (R251) and on the memory that
the two storing instructions leave (R68, R163, R164). -/

namespace Sys2Proof.Machine

variable {s : State}

/-! ### Fetch -/

/-- The fetched word, at an address known as a number (R53). -/
theorem State.fetch_of_pc {a : Nat} (hpc : s.pc.toNat = a) (h : a ≤ 0xFFE) :
    s.fetch = .ok (wordOfBytes (s.byteAt a) (s.byteAt (a + 1))) := by
  subst hpc; exact s.fetch_ok h

/-- A byte of the ROM image, where reset puts it (R251). -/
theorem State.resetWith_byteAt_image (s : State) {rom : List Byte} (f : Framebuffer) (h : rom.length ≤ 3584) {k : Nat}
    (hk : k < rom.length) : (s.resetWith rom f).byteAt (0x200 + k) = rom.getD k 0#8 := by
  rw [s.resetWith_byteAt rom f h, if_pos (by omega), Nat.add_sub_cancel_left]

/-- The word at an offset of the image, fetched from the memory reset leaves (R53, R251). -/
theorem State.fetch_resetWith_setPc (s : State) {rom : List Byte} (f : Framebuffer) (h : rom.length ≤ 3584) {k : Nat}
    (hk : k + 1 < rom.length) {p : Word} (hp : p.toNat = 0x200 + k) :
    ((s.resetWith rom f).setPc p).fetch = .ok (wordOfBytes (rom.getD k 0#8) (rom.getD (k + 1) 0#8)) := by
  rw [State.fetch_of_pc (s := (s.resetWith rom f).setPc p) hp (by omega),
    ← s.resetWith_byteAt_image f h (Nat.lt_of_succ_lt hk), ← s.resetWith_byteAt_image f h hk]
  rfl

/-- Reset leaves `PC` at the start of the image (R41). -/
theorem State.setPc_romBase_resetWith (s : State) (rom : List Byte) (f : Framebuffer) :
    (s.resetWith rom f).setPc 0x200#16 = s.resetWith rom f := rfl

/-- Settles O8: the fetched word as a number, and the first two words of the image by the word at an offset. -/
theorem fetchIsBigEndian : Obligations.FetchIsBigEndian := by
  refine ⟨fun s h => ⟨_, State.fetch_of_pc rfl h, toNat_wordOfBytes _ _⟩, fun s rest f h => ?_⟩
  have hlen : ([0x00#8, 0xE0#8, 0x60#8, 0x05#8] ++ rest).length = rest.length + 4 := by
    rw [List.length_append, Nat.add_comm]; rfl
  have hfirst : wordOfBytes 0x00#8 0xE0#8 = 0x00E0#16 := by decide
  have hsecond : wordOfBytes 0x60#8 0x05#8 = 0x6005#16 := by decide
  constructor
  · rw [← State.setPc_romBase_resetWith, s.fetch_resetWith_setPc f (k := 0) (by omega) (by omega) rfl]
    exact congrArg _ hfirst
  · rw [s.fetch_resetWith_setPc f (k := 2) (by omega) (by omega) rfl]
    exact congrArg _ hsecond

/-! ### Fetch after a store -/

/-- `FX55` in range (R164). -/
theorem exec_ldMemVx_in_range {x : Reg} (h : s.i.toNat + x.val ≤ 0xFFF) :
    exec (.ldMemVx x) s = .next (s.setMem (s.mem.store (s.ea 0) (s.regsUpTo x))).advance :=
  if_neg (by rw [outOfRange_iff, State.ea]; omega)

/-- `FX33` in range (R163). -/
theorem exec_ldB_in_range {x : Reg} (h : s.i.toNat + 2 ≤ 0xFFF) :
    exec (.ldB x) s = .next (s.setMem (s.mem.store (s.ea 0) (decimalDigits (s.reg x)))).advance :=
  if_neg (by rw [outOfRange_iff, State.ea]; omega)

/-- Memory after `FX55`: the registers from `I` up, the old bytes elsewhere (R164). -/
theorem read_store_regsUpTo {x : Reg} (h : s.i.toNat + x.val ≤ 0xFFF) (a : Nat) :
    (s.mem.store (s.ea 0) (s.regsUpTo x)).read a = s.byteAfterRegs x a := by
  have hfit : s.ea 0 + (s.regsUpTo x).length ≤ 4096 := by rw [s.regsUpTo_length, State.ea]; omega
  rw [Memory.read_store _ _ _ _ hfit, s.regsUpTo_length, State.byteAfterRegs]
  by_cases ha : s.i.toNat ≤ a ∧ a ≤ s.i.toNat + x.val
  · rw [if_pos (by rw [State.ea]; omega), if_pos ha, State.ea, Nat.add_zero, s.regsUpTo_getD x _ (by omega)]
    have hk : a - s.i.toNat < 16 := by omega
    simp [List.getD_eq_getElem?_getD, hk]
  · rw [if_neg (by rw [State.ea]; omega), if_neg ha]; rfl

/-- Memory after `FX33`: the digits of `V[X]` at `I`, `I + 1`, `I + 2`, the old bytes elsewhere (R163). -/
theorem read_store_decimalDigits {x : Reg} (h : s.i.toNat + 2 ≤ 0xFFF) (a : Nat) :
    ((s.mem.store (s.ea 0) (decimalDigits (s.reg x))).read a).toNat = s.byteAfterDigits x a := by
  have hlen : (decimalDigits (s.reg x)).length = 3 := rfl
  have hfit : s.ea 0 + (decimalDigits (s.reg x)).length ≤ 4096 := by rw [hlen, State.ea]; omega
  rw [Memory.read_store _ _ _ _ hfit, hlen, State.ea, Nat.add_zero, State.byteAfterDigits]
  by_cases ha : s.i.toNat ≤ a ∧ a < s.i.toNat + 3
  · rw [if_pos ha]
    obtain ⟨k, rfl⟩ := Nat.exists_eq_add_of_le ha.1
    have hk : k < 3 := by omega
    -- the byte at `I + k` is the `k`-th digit; what is left is that a digit fits a byte
    interval_cases k <;> simp [decimalDigits, State.reg] <;> omega
  · rw [if_neg ha, if_neg (by omega), if_neg (by omega), if_neg (by omega)]; rfl

/-- The fetch of the instruction after one that stored: it reads the memory that store left (R68). -/
theorem State.fetch_advance_setMem (m : Memory) (h : s.pc.toNat + 3 ≤ 0xFFF) :
    (s.setMem m).advance.fetch = .ok (wordOfBytes (m.read (s.pc.toNat + 2)) (m.read (s.pc.toNat + 3))) := by
  have hpc : (s.setMem m).advance.pc.toNat = s.pc.toNat + 2 := by
    rw [State.advance_pc, State.setMem_pc, BitVec.toNat_add]
    exact Nat.mod_eq_of_lt (by rw [BitVec.toNat_ofNat]; omega)
  exact State.fetch_of_pc hpc (by omega)

/-- Settles O36: the next fetch reads the two bytes of the memory that `FX55`, or `FX33`, leaves. -/
theorem storeIsSeenByTheNextFetch : Obligations.StoreIsSeenByTheNextFetch := by
  intro s x hpc
  refine ⟨fun h => ⟨_, _, exec_ldMemVx_in_range h, State.fetch_advance_setMem _ hpc, ?_⟩,
    fun h => ⟨_, _, exec_ldB_in_range h, State.fetch_advance_setMem _ hpc, ?_⟩⟩
  · rw [toNat_wordOfBytes, read_store_regsUpTo h, read_store_regsUpTo h]
  · rw [toNat_wordOfBytes, read_store_decimalDigits h, read_store_decimalDigits h]

end Sys2Proof.Machine
end

section
/-! SUPPORT. The opcode map as one partition of the words (R84 to R87): a word decodes and is its own encoding, or it lies in one
of the six groups of R87, where no row of the table selects it. -/

namespace Sys2Proof

/-! ### Operands and sample words (R82, R85) -/

/-- Settles O2: the fields as numbers, and zero extension to a wider word keeps the number. -/
theorem operandsAreTheFieldsOfTheWord : Obligations.OperandsAreTheFieldsOfTheWord :=
  ⟨fun w => ⟨fieldN0_toNat w, fieldN1_toNat w, fieldN2_toNat w, fieldN3_toNat w, fieldN1_toNat w, fieldN2_toNat w,
    fieldN3_toNat w, fieldNN_toNat w, fieldNNN_toNat w⟩,
   Machine.zextAddr_toNat, fun _ => BitVec.toNat_setWidth_of_le (by decide)⟩

/-- Settles O1: fourteen closed cases, decoded by evaluation. -/
theorem sampleWordsDecode : Obligations.SampleWordsDecode := by
  unfold Obligations.SampleWordsDecode
  decide

/-! ### The fields of a word make it up again (R81 to R83) -/

section
variable {w : Word} {a b : BitVec 4} {nn : Byte}

theorem toNat_nibbleOfReg_fieldX (w : Word) : (nibbleOfReg (fieldX w)).toNat = w.toNat / 256 % 16 :=
  (toNat_nibbleOfReg _).trans (fieldN1_toNat w)

theorem toNat_nibbleOfReg_fieldY (w : Word) : (nibbleOfReg (fieldY w)).toNat = w.toNat / 16 % 16 :=
  (toNat_nibbleOfReg _).trans (fieldN2_toNat w)

theorem word_of_addr (h0 : (fieldN0 w).toNat = a.toNat) : (a ++ fieldNNN w : Word) = w := by
  rw [fieldN0_toNat] at h0
  exact BitVec.eq_of_toNat_eq (by rw [toNat_word_addr, fieldNNN_toNat]; omega)

theorem word_of_reg (h0 : (fieldN0 w).toNat = a.toNat) (hnn : (fieldNN w).toNat = nn.toNat) :
    (a ++ nibbleOfReg (fieldX w) ++ nn : Word) = w := by
  rw [fieldN0_toNat] at h0
  rw [fieldNN_toNat] at hnn
  exact BitVec.eq_of_toNat_eq (by rw [toNat_word_regByte, toNat_nibbleOfReg_fieldX]; omega)

theorem word_of_regReg (h0 : (fieldN0 w).toNat = a.toNat) (h3 : (fieldN3 w).toNat = b.toNat) :
    (a ++ nibbleOfReg (fieldX w) ++ nibbleOfReg (fieldY w) ++ b : Word) = w := by
  rw [fieldN0_toNat] at h0
  rw [fieldN3_toNat] at h3
  exact BitVec.eq_of_toNat_eq
    (by rw [toNat_word_nibbles, toNat_nibbleOfReg_fieldX, toNat_nibbleOfReg_fieldY]; omega)

theorem ofNat_fieldN (w : Word) : BitVec.ofNat 4 (fieldN w) = fieldN3 w := by
  rw [fieldN, BitVec.ofNat_toNat, BitVec.setWidth_eq]

end

/-! ### The bits that the masks of the opcode map keep (R84) -/

section
variable {w m v : Word}

theorem fieldN0_of_mask (h : w &&& m = v) (hm : fieldN0 m = BitVec.allOnes 4) : fieldN0 w = fieldN0 v := by
  rw [← h, fieldN0, fieldN0, BitVec.extractLsb'_and, show m.extractLsb' 12 4 = _ from hm, BitVec.and_allOnes]

theorem fieldN3_of_mask (h : w &&& m = v) (hm : fieldN3 m = BitVec.allOnes 4) : fieldN3 w = fieldN3 v := by
  rw [← h, fieldN3, fieldN3, BitVec.extractLsb'_and, show m.extractLsb' 0 4 = _ from hm, BitVec.and_allOnes]

theorem fieldNN_of_mask (h : w &&& m = v) (hm : fieldNN m = BitVec.allOnes 8) : fieldNN w = fieldNN v := by
  rw [← h, fieldNN, fieldNN, BitVec.extractLsb'_and, show m.extractLsb' 0 8 = _ from hm, BitVec.and_allOnes]

end

/-! ### The decision tree -/

/-- The word lies in one of the six groups of R87. -/
abbrev UnlistedWord (w : Word) : Prop :=
  (w.toNat / 4096 = 0x0 ∧ w ≠ 0x00E0#16 ∧ w ≠ 0x00EE#16) ∨
  (w.toNat / 4096 = 0x5 ∧ w.toNat % 16 ≠ 0) ∨
  (w.toNat / 4096 = 0x8 ∧ w.toNat % 16 ∈ [0x8, 0x9, 0xA, 0xB, 0xC, 0xD, 0xF]) ∨
  (w.toNat / 4096 = 0x9 ∧ w.toNat % 16 ≠ 0) ∨
  (w.toNat / 4096 = 0xE ∧ w.toNat % 256 ∉ [0x9E, 0xA1]) ∨
  (w.toNat / 4096 = 0xF ∧ w.toNat % 256 ∉ [0x07, 0x0A, 0x15, 0x18, 0x1E, 0x29, 0x33, 0x55, 0x65])

/-- One walk through the decision tree: every leaf that answers lays the fields of the word out again, every leaf that rejects
stands in a group of R87. -/
theorem decodeWord_cases (w : Word) :
    (∃ i, decodeWord w = .ok i ∧ WellFormed i = true ∧ encode i = w) ∨
    (decodeWord w = .error (.unrecognizedOpcode w) ∧ UnlistedWord w) := by
  have hdiv {k : Nat} : (fieldN0 w).toNat = k → w.toNat / 4096 = k := (fieldN0_toNat w).symm.trans
  fun_cases decodeWord w with
  -- `00E0`, `00EE`: the word itself is compared
  | case1 h0 hw | case2 h0 _ hw => exact .inl ⟨_, rfl, rfl, hw.symm⟩
  -- `NNN` is the whole operand
  | case4 h0 | case5 h0 | case24 h0 | case25 h0 => exact .inl ⟨_, rfl, rfl, word_of_addr h0⟩
  -- `X` and `NN`
  | case6 h0 | case7 h0 | case10 h0 | case11 h0 | case26 h0 => exact .inl ⟨_, rfl, rfl, word_of_reg h0 rfl⟩
  -- `X` and `Y`, the last nibble compared: `5XY0`, `9XY0`, then the rows of `8XYn`
  | case8 h0 h3 | case22 h0 h3 => exact .inl ⟨_, rfl, rfl, word_of_regReg h0 (congrArg BitVec.toNat h3)⟩
  | case12 h0 h3 | case13 h0 h3 | case14 h0 h3 | case15 h0 h3 | case16 h0 h3 | case17 h0 h3 | case18 h0 h3
  | case19 h0 h3 | case20 h0 h3 => exact .inl ⟨_, rfl, rfl, word_of_regReg h0 h3⟩
  -- `DXYN`
  | case27 h0 =>
    exact .inl ⟨_, rfl, decide_eq_true (fieldN3 w).isLt, word_of_regReg h0 (congrArg BitVec.toNat (ofNat_fieldN w).symm)⟩
  -- `X`, the low byte compared: `EXnn`, `FXnn`
  | case28 h0 hnn | case29 h0 hnn | case31 h0 hnn | case32 h0 hnn | case33 h0 hnn | case34 h0 hnn | case35 h0 hnn
  | case36 h0 hnn | case37 h0 hnn | case38 h0 hnn | case39 h0 hnn => exact .inl ⟨_, rfl, rfl, word_of_reg h0 hnn⟩
  -- the rejecting leaves, in the order of R87, and the leaf of no first nibble
  | case3 h0 hcls hret => exact .inr ⟨rfl, .inl ⟨hdiv h0, hcls, hret⟩⟩
  | case9 h0 h3 => exact .inr ⟨rfl, .inr (.inl ⟨hdiv h0, fun h => h3 (BitVec.eq_of_toNat_eq ((fieldN3_toNat w).trans h))⟩)⟩
  | case21 h0 =>
    refine .inr ⟨rfl, .inr (.inr (.inl ⟨hdiv h0, ?_⟩))⟩
    have hlt := (fieldN3 w).isLt
    rw [← fieldN3_toNat]
    simp only [imp_false, List.mem_cons, List.not_mem_nil, or_false] at *
    omega
  | case23 h0 h3 =>
    exact .inr ⟨rfl, .inr (.inr (.inr (.inl ⟨hdiv h0, fun h => h3 (BitVec.eq_of_toNat_eq ((fieldN3_toNat w).trans h))⟩)))⟩
  | case30 h0 =>
    refine .inr ⟨rfl, .inr (.inr (.inr (.inr (.inl ⟨hdiv h0, ?_⟩))))⟩
    rw [← fieldNN_toNat]
    simp_all
  | case40 h0 =>
    refine .inr ⟨rfl, .inr (.inr (.inr (.inr (.inr ⟨hdiv h0, ?_⟩))))⟩
    rw [← fieldNN_toNat]
    simp_all
  | case41 =>
    have hlt := (fieldN0 w).isLt
    simp only [imp_false] at *
    omega

/-! ### The mask-and-match table -/

/-- The mask of a row keeps the bits by which R87 tells the words of its first nibble apart. -/
theorem mask_of_mem_opcodeTable : ∀ r ∈ opcodeTable,
    r.mask = 0xFFFF#16 ∨
    (r.mask = 0xF000#16 ∧ (fieldN0 r.value).toNat ∉ [0x0, 0x5, 0x8, 0x9, 0xE, 0xF]) ∨
    (r.mask = 0xF00F#16 ∧ (fieldN0 r.value).toNat ∈ [0x5, 0x8, 0x9]) ∨
    (r.mask = 0xF0FF#16 ∧ (fieldN0 r.value).toNat ∈ [0xE, 0xF]) := by decide

theorem listed_of_mem_opcodeTable : ∀ r ∈ opcodeTable, ¬ UnlistedWord r.value := by decide

/-- The values of two rows differ in a bit that both masks keep. -/
abbrev OpcodeRow.Apart (r r' : OpcodeRow) : Prop := r.value &&& r'.mask ≠ r'.value &&& r.mask

theorem opcodeTable_pairwise_apart : opcodeTable.Pairwise OpcodeRow.Apart := by decide

theorem opcodeTable_disjoint {w : Word} {r r' : OpcodeRow} (hr : r ∈ opcodeTable) (hr' : r' ∈ opcodeTable)
    (h : w &&& r.mask = r.value) (h' : w &&& r'.mask = r'.value) : r = r' := by
  by_contra hne
  have : Std.Symm OpcodeRow.Apart := ⟨fun _ _ h => h.symm⟩
  refine opcodeTable_pairwise_apart.forall hr hr' hne ?_
  rw [← h, ← h', BitVec.and_assoc, BitVec.and_assoc, BitVec.and_comm r.mask]

/-- A word that selects a row agrees with the row's value in every bit that R87 looks at. -/
theorem not_unlisted_of_row {w : Word} {r : OpcodeRow} (hr : r ∈ opcodeTable) (h : w &&& r.mask = r.value) :
    ¬ UnlistedWord w := by
  have hv := listed_of_mem_opcodeTable r hr
  obtain hm | ⟨hm, h0⟩ | ⟨hm, h0⟩ | ⟨hm, h0⟩ := mask_of_mem_opcodeTable r hr <;> rw [hm] at h
  · rwa [← h, show w &&& 0xFFFF#16 = w from BitVec.and_allOnes] at hv
  · have e0 := congrArg BitVec.toNat (fieldN0_of_mask h rfl)
    simp only [fieldN0_toNat, List.mem_cons, List.not_mem_nil, or_false] at h0 e0
    omega
  · have e0 := congrArg BitVec.toNat (fieldN0_of_mask h rfl)
    have e3 := congrArg BitVec.toNat (fieldN3_of_mask h rfl)
    simp only [fieldN0_toNat, fieldN3_toNat, List.mem_cons, List.not_mem_nil, or_false] at h0 e0 e3
    obtain h0 | h0 | h0 := h0 <;> simpa [UnlistedWord, e0, e3, h0] using hv
  · have e0 := congrArg BitVec.toNat (fieldN0_of_mask h rfl)
    have en := congrArg BitVec.toNat (fieldNN_of_mask h rfl)
    simp only [fieldN0_toNat, fieldNN_toNat, List.mem_cons, List.not_mem_nil, or_false] at h0 e0 en
    obtain h0 | h0 := h0 <;> simpa [UnlistedWord, e0, en, h0] using hv

open Laws in
/-- Every instruction's word is in the row of its mnemonic (R85). -/
theorem encodesInRow : ∀ i : Instr, EncodesInRow.Statement i
  | .cls => EncodesInRow.cls
  | .ret => EncodesInRow.ret
  | .jp nnn => EncodesInRow.jp nnn
  | .call nnn => EncodesInRow.call nnn
  | .seImm x nn => EncodesInRow.seImm x nn
  | .sneImm x nn => EncodesInRow.sneImm x nn
  | .seReg x y => EncodesInRow.seReg x y
  | .ldImm x nn => EncodesInRow.ldImm x nn
  | .addImm x nn => EncodesInRow.addImm x nn
  | .ldReg x y => EncodesInRow.ldReg x y
  | .or x y => EncodesInRow.or x y
  | .and x y => EncodesInRow.and x y
  | .xor x y => EncodesInRow.xor x y
  | .add x y => EncodesInRow.add x y
  | .sub x y => EncodesInRow.sub x y
  | .shr x y => EncodesInRow.shr x y
  | .subn x y => EncodesInRow.subn x y
  | .shl x y => EncodesInRow.shl x y
  | .sneReg x y => EncodesInRow.sneReg x y
  | .ldI nnn => EncodesInRow.ldI nnn
  | .jpV0 nnn => EncodesInRow.jpV0 nnn
  | .rnd x nn => EncodesInRow.rnd x nn
  | .drw x y n => EncodesInRow.drw x y n
  | .skp x => EncodesInRow.skp x
  | .sknp x => EncodesInRow.sknp x
  | .ldVxDt x => EncodesInRow.ldVxDt x
  | .ldVxK x => EncodesInRow.ldVxK x
  | .ldDtVx x => EncodesInRow.ldDtVx x
  | .ldStVx x => EncodesInRow.ldStVx x
  | .addI x => EncodesInRow.addI x
  | .ldF x => EncodesInRow.ldF x
  | .ldB x => EncodesInRow.ldB x
  | .ldMemVx x => EncodesInRow.ldMemVx x
  | .ldVxMem x => EncodesInRow.ldVxMem x

/-! ### The decoder as a map (R84, R87) -/

theorem decodeWord_error {w : Word} {e : DecodeReject} (h : decodeWord w = .error e) :
    e = .unrecognizedOpcode w ∧ UnlistedWord w := by
  obtain ⟨i, hi, -⟩ | ⟨he, hu⟩ := decodeWord_cases w
  · cases hi.symm.trans h
  · exact ⟨Except.error.inj (h.symm.trans he), hu⟩

theorem decodeWord_error_iff {w : Word} : (∃ e, decodeWord w = .error e) ↔ UnlistedWord w := by
  refine ⟨fun ⟨e, h⟩ => (decodeWord_error h).2, fun hu => ?_⟩
  obtain ⟨i, -, -, rfl⟩ | ⟨he, -⟩ := decodeWord_cases w
  · obtain ⟨r, hr, -, hsel⟩ := encodesInRow i
    exact absurd hu (not_unlisted_of_row hr hsel)
  · exact ⟨_, he⟩

/-- Settles O4: a word that decodes is the encoding of a well-formed instruction, and decodes to no other. -/
theorem encodeInvertsDecode : Obligations.EncodeInvertsDecode := by
  intro w i h
  obtain ⟨j, hj, hwf, hw⟩ | ⟨he, -⟩ := decodeWord_cases w
  · cases h.symm.trans hj
    exact ⟨hwf, hw⟩
  · cases h.symm.trans he

/-- Settles O5: no word is in two rows; the word of an instruction is in the row of its mnemonic; a word that a row selects
is in none of the six groups of R87. -/
theorem decoderIsTheOpcodeTable : Obligations.DecoderIsTheOpcodeTable := by
  refine ⟨fun w r hr r' hr' => opcodeTable_disjoint hr hr', fun w i h => ?_, fun w e h => ?_⟩
  · obtain ⟨r, hr, hname, hsel⟩ := encodesInRow i
    rw [(encodeInvertsDecode w i h).2] at hsel
    exact ⟨r, hr, hsel, hname⟩
  · obtain ⟨he, hu⟩ := decodeWord_error h
    exact ⟨he, fun r hr hsel => not_unlisted_of_row hr hsel hu⟩

/-! ### Counting the words of the groups (R87) -/

/-- A condition on the remainder by `m` holds equally often in each of `q` stretches of length `m`. -/
theorem count_mod (p : Nat → Prop) [DecidablePred p] (m q : Nat) :
    Nat.count (fun k => p (k % m)) (m * q) = q * Nat.count p m := by
  induction q with
  | zero => simp
  | succ q ih =>
    rw [Nat.mul_succ, Nat.count_add, ih, Nat.succ_mul]
    simp only [Nat.mul_add_mod, Nat.add_left_cancel_iff, Nat.count_eq_card_filter_range]
    exact congrArg _ (Finset.filter_congr fun k hk => by rw [Nat.mod_eq_of_lt (Finset.mem_range.mp hk)])

theorem count_notMem {l : List Nat} {m : Nat} (hl : l.Nodup) (hm : ∀ a ∈ l, a < m) :
    Nat.count (· ∉ l) m = m - l.length := by
  have hsub : l.toFinset ⊆ Finset.range m := fun a ha => Finset.mem_range.mpr (hm a (List.mem_toFinset.mp ha))
  rw [Nat.count_eq_card_filter_range, ← List.toFinset_card_of_nodup hl, ← Finset.card_range m,
    ← Finset.card_sdiff_of_subset hsub, Finset.card_range]
  congr 1
  ext a
  simp

/-- Which words of one first nibble are recognised: those whose remainder by `modulus` is in `residues`. -/
structure LowBits where
  modulus : Nat
  residues : List Nat

/-- The recognised words with first nibble `n0` (R85, R87). -/
def recognisedLowBits (n0 : Nat) : LowBits :=
  match n0 with
  | 0x0 => ⟨4096, [0x0E0, 0x0EE]⟩
  | 0x5 | 0x9 => ⟨16, [0x0]⟩
  | 0x8 => ⟨16, [0x0, 0x1, 0x2, 0x3, 0x4, 0x5, 0x6, 0x7, 0xE]⟩
  | 0xE => ⟨256, [0x9E, 0xA1]⟩
  | 0xF => ⟨256, [0x07, 0x0A, 0x15, 0x18, 0x1E, 0x29, 0x33, 0x55, 0x65]⟩
  | _ => ⟨1, [0]⟩

theorem recognisedLowBits_wf : ∀ n0 < 16, (recognisedLowBits n0).residues.Nodup ∧
    (∀ a ∈ (recognisedLowBits n0).residues, a < (recognisedLowBits n0).modulus) ∧
    (recognisedLowBits n0).modulus * (4096 / (recognisedLowBits n0).modulus) = 4096 := by decide

/-- In the group of `8XYn` R87 lists the remainders that are not recognised. -/
theorem mem_listed8_iff : ∀ k < 16, k ∈ [0x8, 0x9, 0xA, 0xB, 0xC, 0xD, 0xF] ↔ k ∉ (recognisedLowBits 0x8).residues := by
  decide

theorem unlistedWord_iff_lowBits {w : Word} {n0 : Nat} (h0 : w.toNat / 4096 = n0) :
    UnlistedWord w ↔ w.toNat % (recognisedLowBits n0).modulus ∉ (recognisedLowBits n0).residues := by
  have hn0 : n0 < 16 := by omega
  have hzero : w.toNat / 4096 = 0 → w.toNat % 4096 = w.toNat := by omega
  have h8 := mem_listed8_iff (w.toNat % 16) (Nat.mod_lt _ (by decide))
  interval_cases n0
  all_goals simp [UnlistedWord, h0, recognisedLowBits, ← BitVec.toNat_inj, Nat.mod_one, hzero, h8]

theorem decodeWord_isOk_eq_false_iff {w : Word} : (decodeWord w).isOk = false ↔ UnlistedWord w := by
  rw [← decodeWord_error_iff]
  cases decodeWord w <;> simp [Except.isOk, Except.toBool]

/-- The rejected words of a first nibble: `modulus` minus the recognised remainders, as often as the modulus goes into 4096. -/
theorem length_filter_rejected {n0 : Nat} (hn0 : n0 < 16) :
    ((List.range 4096).filter fun k => !(decodeWord (BitVec.ofNat 16 (4096 * n0 + k))).isOk).length =
      4096 / (recognisedLowBits n0).modulus * ((recognisedLowBits n0).modulus - (recognisedLowBits n0).residues.length) := by
  obtain ⟨hnodup, hlt, hmod⟩ := recognisedLowBits_wf n0 hn0
  rw [← count_notMem hnodup hlt, ← count_mod, hmod, Nat.count, List.countP_eq_length_filter]
  refine congrArg _ (List.filter_congr fun k hk => ?_)
  have hk := List.mem_range.mp hk
  have hw : (BitVec.ofNat 16 (4096 * n0 + k)).toNat = 4096 * n0 + k := by
    rw [BitVec.toNat_ofNat]
    exact Nat.mod_eq_of_lt (by omega)
  have hresidue : (4096 * n0 + k) % (recognisedLowBits n0).modulus = k % (recognisedLowBits n0).modulus := by
    conv_lhs => rw [← hmod, Nat.mul_assoc, Nat.mul_add_mod]
  rw [Bool.eq_iff_iff, Bool.not_eq_true', decodeWord_isOk_eq_false_iff, unlistedWord_iff_lowBits (n0 := n0) (by omega),
    hw, hresidue, decide_eq_true_iff]

/-- Settles O6: the groups are what the decoder rejects, and the remainders of one first nibble recur with the modulus. -/
theorem unrecognisedWordsAreTheListedGroups : Obligations.UnrecognisedWordsAreTheListedGroups := by
  refine ⟨fun w => decodeWord_error_iff, fun n0 => ?_⟩
  rw [length_filter_rejected n0.isLt]
  revert n0
  decide

end Sys2Proof
end

section
/-! SUPPORT. The CPU's step (R101 to R107): the instruction two bytes decode to, the faults of a fetch, and what an instruction
that halts the core has written. -/

namespace Sys2Proof.Machine

variable {s t : State} {i : Instr}

/-- Taking a move off the coming moves changes nothing a fetch reads. -/
@[simp] theorem State.afterTurn_fetch (s : State) : s.afterTurn.fetch = s.fetch := rfl

/-- Two bytes decode as the word they make (R53, R80). -/
theorem decodeWord_of_decode_pair {hi lo : Byte} (h : decode [hi, lo] = .ok (i, [])) :
    decodeWord (wordOfBytes hi lo) = .ok i := by
  cases hd : decodeWord (wordOfBytes hi lo) with
  | error r => simp only [decode, hd] at h; cases h
  | ok j => simp only [decode, hd] at h; cases h; rfl

/-- Settles O7: the fetched word is the one the two bytes make. -/
theorem stepExecutesTheDecodedInstruction : Obligations.StepExecutesTheDecodedInstruction := by
  intro s i he hr hpc hd
  rw [step_of_cpuStep he]
  exact cpuStep_exec (s := s.afterTurn) hr (s.fetch_ok hpc) (decodeWord_of_decode_pair hd)

/-- Settles O9: above 0xFFE the fetch answers the first offending address. -/
theorem fetchOutOfRangeFaults : Obligations.FetchOutOfRangeFaults := by
  intro s he hr hpc
  have haddr : (if s.pc.toNat > 0xFFF then s.pc else 0x1000#16) = if s.pc.toNat = 0xFFF then 0x1000#16 else s.pc := by
    by_cases h : s.pc.toNat = 0xFFF
    · rw [if_neg (by omega), if_pos h]
    · rw [if_pos (by omega), if_neg h]
  refine ⟨?_, rfl⟩
  rw [step_of_cpuStep he, cpuStep_fetchFault (s := s.afterTurn) hr (s.fetch_error hpc), haddr]
  rfl

/-! ### An instruction that halts the core (R107, R222) -/

/-- From `s` the instruction `i` leaves a state `t` whose core is halted as before, or `t` is `s` with the fault record alone
written, under the word of `i`. -/
def HaltsOnlyByFault (s : State) (i : Instr) (t : State) : Prop :=
  t.halted = s.halted ∨ ∃ c info, c ≠ .none ∧ t = s.raise c (encode i) info

theorem haltsOnlyByFault_of_rangeCheck {out : Bool} (h : t.halted = s.halted) :
    ∃ u, (if out then .next (s.raiseRange (encode i)) else .next t : Result) = .next u ∧ HaltsOnlyByFault s i u := by
  cases out with
  | true => exact ⟨_, rfl, .inr ⟨.memOutOfRange, _, by decide, rfl⟩⟩
  | false => exact ⟨_, rfl, .inl h⟩

theorem keySkip_haltsOnlyByFault (b : Byte) (down : Bool) (s : State) :
    HaltsOnlyByFault s i (keySkip b down (encode i) s) := by
  obtain ⟨-, h⟩ | ⟨-, h⟩ := keySkip_cases b down (encode i) s
  · exact .inr ⟨.invalidKeyIndex, _, by decide, h⟩
  · exact .inl (by rw [h]; rfl)

theorem execRet_haltsOnlyByFault (s : State) : ∃ t, execRet s = .next t ∧ HaltsOnlyByFault s .ret t := by
  obtain ⟨-, h⟩ | ⟨k, -, h⟩ := execRet_cases s
  · exact ⟨_, h, .inr ⟨.stackUnderflow, _, by decide, rfl⟩⟩
  · exact ⟨_, h, .inl rfl⟩

theorem execCall_haltsOnlyByFault (nnn : Addr) (s : State) :
    ∃ t, execCall nnn s = .next t ∧ HaltsOnlyByFault s (.call nnn) t := by
  obtain ⟨-, h⟩ | ⟨k, -, h⟩ := execCall_cases nnn s
  · exact ⟨_, h, .inr ⟨.stackOverflow, _, by decide, rfl⟩⟩
  · exact ⟨_, h, .inl rfl⟩

theorem execLdVxK_haltsOnlyByFault (x : Reg) (s : State) :
    ∃ t, execLdVxK x s = .next t ∧ HaltsOnlyByFault s (.ldVxK x) t := by
  unfold execLdVxK
  cases lowestKey s.keys <;> exact ⟨_, rfl, .inl rfl⟩

/-- Only fault entry halts the core, and it records the word of the instruction. -/
theorem exec_haltsOnlyByFault (s : State) : ∀ i : Instr, ∃ t, exec i s = .next t ∧ HaltsOnlyByFault s i t
  | .ret => execRet_haltsOnlyByFault s
  | .call nnn => execCall_haltsOnlyByFault nnn s
  | .skp _ | .sknp _ => ⟨_, rfl, keySkip_haltsOnlyByFault _ _ s⟩
  | .ldVxK x => execLdVxK_haltsOnlyByFault x s
  | .drw _ _ _ | .ldB _ | .ldMemVx _ | .ldVxMem _ => haltsOnlyByFault_of_rangeCheck rfl
  | .cls | .jp _ | .jpV0 _ | .seImm _ _ | .sneImm _ _ | .seReg _ _ | .sneReg _ _ => ⟨_, rfl, .inl rfl⟩
  | .ldImm _ _ | .addImm _ _ | .ldReg _ _ | .or _ _ | .and _ _ | .xor _ _ | .add _ _ | .sub _ _ => ⟨_, rfl, .inl rfl⟩
  | .shr _ _ | .subn _ _ | .shl _ _ | .rnd _ _ | .ldI _ | .addI _ | .ldF _ => ⟨_, rfl, .inl rfl⟩
  | .ldVxDt _ | .ldDtVx _ | .ldStVx _ => ⟨_, rfl, .inl rfl⟩

/-- An instruction that halts a running core has written the fault record and nothing else. -/
theorem raise_of_exec_halts (hr : s.halted = false) (h : exec i s = .next t) (ht : t.halted = true) :
    ∃ c info, c ≠ .none ∧ t = s.raise c (encode i) info := by
  obtain ⟨u, hu, hf⟩ := exec_haltsOnlyByFault s i
  obtain rfl : u = t := by rw [hu] at h; injection h
  exact hf.resolve_left fun hh => by rw [hh, hr] at ht; cases ht

/-- Settles O12: each of the three faults of a step is a fault entry, and the word of a decoded instruction is the fetched one. -/
theorem faultingStepWritesOnlyTheRecord : Obligations.FaultingStepWritesOnlyTheRecord := by
  intro s t he hr hstep ht
  rw [step_of_cpuStep he] at hstep
  obtain ⟨a, hf, hc⟩ | ⟨op, r, hf, -, hc⟩ | ⟨op, i, hf, hd, hc⟩ := cpuStep_cases (s := s.afterTurn) hr <;>
    rw [hc] at hstep <;> rw [← s.afterTurn_fetch, hf]
  · cases hstep
    exact ⟨rfl, by simp, fun _ h => (nomatch h), fun _ _ => rfl⟩
  · cases hstep
    exact ⟨rfl, by simp, fun _ h => Except.ok.inj h, fun _ h => (nomatch h)⟩
  · obtain ⟨c, info, hne, rfl⟩ := raise_of_exec_halts (s := s.afterTurn) hr hstep ht
    have hop : encode i = op := (encodeInvertsDecode op i hd).2
    exact ⟨rfl, hne, fun _ h => hop.trans (Except.ok.inj h), fun _ h => (nomatch h)⟩

end Sys2Proof.Machine
end

section
/-! SUPPORT. What a move of an agent does to the moves still to come (R109) and to a halted core (R110): which moves answer,
and that both agents move again and again. -/

namespace Sys2Proof.Machine

variable {s t u : State} {e : Event} {n : Nat}

/-! ### Moves that answer (R101, R230, R254) -/

theorem cpuStep_answers (s : State) : ∃ t, cpuStep s = .next t ∧ t.schedule = s.schedule := by
  cases hr : s.halted with
  | true => exact ⟨s, cpuStep_halted hr, rfl⟩
  | false =>
    obtain ⟨a, -, hc⟩ | ⟨op, r, -, -, hc⟩ | ⟨op, i, -, -, hc⟩ := cpuStep_cases hr
    · exact ⟨_, hc, rfl⟩
    · exact ⟨_, hc, rfl⟩
    · obtain ⟨t, ht, heffect⟩ := exec_answers s i
      exact ⟨t, hc.trans ht, heffect.outside_unchanged.2.1⟩

theorem timerTick_halted (h : s.halted = true) : s.timerTick = s := if_pos h

theorem State.timerTick_schedule (s : State) : s.timerTick.schedule = s.schedule := by
  unfold State.timerTick
  split <;> rfl

/-- A move the host may make has a next state and leaves the coming moves alone. -/
theorem agentStep_answers (s : State) (h : e.launchable = true) :
    ∃ t, agentStep e s = .next t ∧ t.schedule = s.schedule := by
  cases e with
  | cpuStep => exact cpuStep_answers s
  | timerTick => exact ⟨_, rfl, s.timerTick_schedule⟩
  | setKeys k => exact ⟨_, rfl, rfl⟩
  | reset rom f => exact ⟨_, if_pos (of_decide_eq_true h), rfl⟩

/-- The only move the host may not make is a reset with an image that does not fit (R254). -/
theorem Event.overlong_of_not_launchable (h : e.launchable = false) :
    ∃ rom f, e = .reset rom f ∧ 3584 < rom.length := by
  cases e with
  | reset rom f => exact ⟨rom, f, rfl, Nat.lt_of_not_le (of_decide_eq_false h)⟩
  | _ => cases h

/-- Settles O14: the moves that may be made answer; another one is listed, and is a reset that is refused. -/
theorem everyMoveAnswersOrIsAnOverlongReset : Obligations.EveryMoveAnswersOrIsAnOverlongReset := by
  intro s
  cases hl : s.nextEvent.launchable with
  | true =>
    obtain ⟨t, ht, -⟩ := agentStep_answers s.afterTurn hl
    exact .inl ⟨t, ht⟩
  | false =>
    obtain ⟨rom, f, he, hlen⟩ := Event.overlong_of_not_launchable hl
    have hlisted := schedule_of_not_launchable hl
    rw [he] at hlisted
    refine .inr ⟨rom, f, _, hlisted, hlen, ?_⟩
    rw [step_eq, he]
    exact if_neg (Nat.not_le.2 hlen)

/-! ### The halted core and the key flags (R108, R110, R223) -/

theorem step_of_timerTick (h : s.nextEvent = .timerTick) : step s = .next s.afterTurn.timerTick := by
  rw [step_eq, h]; rfl

theorem step_of_setKeys {k : Word} (h : s.nextEvent = .setKeys k) : step s = .next (s.afterTurn.setKeyFlags k) := by
  rw [step_eq, h]; rfl

/-- Settles O57: the move is `setKeyFlags`. -/
theorem keyFlagsAreDrivenFromOutside : Obligations.KeyFlagsAreDrivenFromOutside :=
  fun _ _ he => step_of_setKeys he

/-- A halted core's CPU step and timer tick only take their turn. -/
theorem step_of_halted (h : s.halted = true) (he : s.nextEvent = .cpuStep ∨ s.nextEvent = .timerTick) :
    step s = .next s.afterTurn := by
  obtain he | he := he
  · rw [step_of_cpuStep he]
    exact cpuStep_halted (s := s.afterTurn) h
  · rw [step_of_timerTick he, timerTick_halted (s := s.afterTurn) h]

/-- Of the four moves only a reset leaves a halted core running. -/
theorem reset_of_step_running (h : s.halted = true) (hstep : step s = .next t) (ht : t.halted = false) :
    ∃ rom f, s.nextEvent = .reset rom f := by
  have hturn : s.afterTurn.halted = true := h
  cases he : s.nextEvent with
  | cpuStep =>
    cases (step_of_halted h (.inl he)).symm.trans hstep
    cases hturn.symm.trans ht
  | timerTick =>
    cases (step_of_halted h (.inr he)).symm.trans hstep
    cases hturn.symm.trans ht
  | setKeys k =>
    cases (step_of_setKeys he).symm.trans hstep
    cases hturn.symm.trans ht
  | reset rom f => exact ⟨rom, f, rfl⟩

/-- Settles O11: one clause for each agent's move. -/
theorem haltedCoreIsFrozen : Obligations.HaltedCoreIsFrozen := fun _ h =>
  ⟨step_of_halted h, fun _ he => step_of_setKeys he, fun _ => reset_of_step_running h,
    fun _ _ he hlen => ⟨_, step_of_reset he hlen, rfl⟩⟩

/-! ### Fairness (R109) -/

/-- The listed moves are moves the host may make. -/
def State.MayMove (s : State) : Prop := ∀ e ∈ s.schedule, e.launchable = true

theorem State.MayMove.coming (h : s.MayMove) : ∀ e ∈ s.coming, e.launchable = true := by
  cases hs : s.schedule with
  | nil => rw [coming_of_nil hs]; exact (roundMoves_fair s.round).2.2
  | cons e es => rw [coming_of_cons hs, ← hs]; exact h

/-- A move is made, and the others are still to come. -/
theorem State.MayMove.step_answers (h : s.MayMove) :
    ∃ t, step s = .next t ∧ t.schedule = s.afterTurn.schedule ∧ t.MayMove := by
  have hcoming := h.coming
  rw [coming_eq, List.forall_mem_cons] at hcoming
  obtain ⟨t, ht, hs⟩ := agentStep_answers s.afterTurn hcoming.1
  exact ⟨t, ht, hs, by rw [State.MayMove, hs]; exact hcoming.2⟩

theorem State.MayMove.run_answers : ∀ (k : Nat) {s : State}, s.MayMove → ∃ t, core.run k s = .next t
  | 0, s, _ => ⟨s, coreRun_zero s⟩
  | k + 1, _, h => by
    obtain ⟨t, ht, -, hmay⟩ := h.step_answers
    rw [coreRun_next ht]
    exact hmay.run_answers k

/-- From `s` the machine reaches, after at least `n` steps, a state at which the next move is `e`. -/
def State.MovesAfter (s : State) (n : Nat) (e : Event) : Prop :=
  ∃ k ≥ n, ∃ t, core.run k s = .next t ∧ t.nextEvent = e

theorem State.MovesAfter.of_step (hstep : step s = .next t) (h : t.MovesAfter n e) : s.MovesAfter (n + 1) e := by
  obtain ⟨k, hk, u, hu, he⟩ := h
  exact ⟨k + 1, Nat.succ_le_succ hk, u, (coreRun_next hstep).trans hu, he⟩

theorem State.MovesAfter.weaken (h : s.MovesAfter (n + 1) e) : s.MovesAfter n e := by
  obtain ⟨k, hk, hrest⟩ := h
  exact ⟨k, Nat.le_of_succ_le hk, hrest⟩

/-- Every coming move becomes the next one, by induction on the coming moves. -/
theorem State.MayMove.movesAfter_of_mem {es : List Event} (h : s.MayMove) (hs : s.coming = es) (he : e ∈ es) :
    s.MovesAfter 0 e := by
  induction es generalizing s with
  | nil => cases he
  | cons e' es ih =>
    obtain ⟨hnext, hlater⟩ := List.cons.inj ((coming_eq s).symm.trans hs)
    obtain rfl | he := List.mem_cons.1 he
    · exact ⟨0, Nat.le_refl 0, s, coreRun_zero s, hnext⟩
    · obtain ⟨t, ht, hsched, hmay⟩ := h.step_answers
      have hcoming : t.coming = es := by
        obtain ⟨e'', es', rfl⟩ := List.exists_cons_of_ne_nil (List.ne_nil_of_mem he)
        exact coming_of_cons (hsched.trans hlater)
      exact (State.MovesAfter.of_step ht (ih hmay hcoming he)).weaken

/-- A move of every round comes: the listed moves come to an end, then a round begins. -/
theorem State.MayMove.movesAfter_zero {es : List Event} (h : s.MayMove) (hs : s.schedule = es)
    (he : ∀ k, e ∈ roundMoves k) : s.MovesAfter 0 e := by
  induction es generalizing s with
  | nil => exact h.movesAfter_of_mem (coming_of_nil hs) (he s.round)
  | cons e' es ih =>
    obtain ⟨t, ht, hsched, hmay⟩ := h.step_answers
    rw [afterTurn_of_cons hs] at hsched
    exact (State.MovesAfter.of_step ht (ih hmay hsched)).weaken

/-- A move of every round comes however many steps were made before. -/
theorem State.MayMove.movesAfter (h : s.MayMove) (he : ∀ k, e ∈ roundMoves k) (n : Nat) : s.MovesAfter n e := by
  induction n generalizing s with
  | zero => exact h.movesAfter_zero rfl he
  | succ n ih =>
    obtain ⟨t, ht, -, hmay⟩ := h.step_answers
    exact .of_step ht (ih hmay)

/-- Settles O46: both a CPU step and a timer tick are moves of every round. -/
theorem bothAgentsMoveForever : Obligations.BothAgentsMoveForever := fun s h =>
  have hmay : s.MayMove := h
  ⟨fun k => hmay.run_answers k, fun n => ⟨hmay.movesAfter (fun k => (roundMoves_fair k).1) n,
    hmay.movesAfter (fun k => (roundMoves_fair k).2.1) n⟩⟩

end Sys2Proof.Machine
end

section
/-! SUPPORT. What no instruction but the timers' own sees: the two timers, and the moves listed for later. Changing them commutes
with an instruction, so a tick does (R109), and a list of moves is made in its order. -/

namespace Sys2Proof

/-- The three instructions that read or write a timer (R194 to R196). -/
def Instr.usesTimer : Instr → Bool
  | .ldVxDt _ | .ldDtVx _ | .ldStVx _ => true
  | _ => false

theorem Instr.not_usesTimer_of_ne {i : Instr} (h : ∀ x, i ≠ .ldVxDt x ∧ i ≠ .ldDtVx x ∧ i ≠ .ldStVx x) :
    i.usesTimer = false := by
  cases i with
  | ldVxDt x => exact absurd rfl (h x).1
  | ldDtVx x => exact absurd rfl (h x).2.1
  | ldStVx x => exact absurd rfl (h x).2.2
  | _ => rfl

end Sys2Proof

namespace Sys2Proof.Machine

variable {s t : State}

/-- The state with `f` applied to both timers and `g` to the listed moves. -/
def State.mapTimersMoves (s : State) (f : Byte → Byte) (g : List Event → List Event) : State :=
  { s with dt := f s.dt, st := f s.st, schedule := g s.schedule }

section
variable (f : Byte → Byte) (g : List Event → List Event)

theorem execRet_mapTimersMoves (s : State) :
    execRet (s.mapTimersMoves f g) = Result.mapNext (·.mapTimersMoves f g) (execRet s) := by
  rcases s.sp_empty_or_used with h | ⟨k, h⟩
  · simp only [execRet, s.pop_none h, (s.mapTimersMoves f g).pop_none h]; rfl
  · simp only [execRet, s.pop_some k h, (s.mapTimersMoves f g).pop_some k h]; rfl

theorem execCall_mapTimersMoves (nnn : Addr) (s : State) :
    execCall nnn (s.mapTimersMoves f g) = Result.mapNext (·.mapTimersMoves f g) (execCall nnn s) := by
  rcases s.sp_full_or_room with h | ⟨k, h⟩
  · simp only [execCall, s.push_none h, (s.mapTimersMoves f g).push_none h]; rfl
  · simp only [execCall, s.push_some k h, (s.mapTimersMoves f g).push_some k h]; rfl

theorem keySkip_mapTimersMoves (b : Byte) (down : Bool) (op : Word) (s : State) :
    keySkip b down op (s.mapTimersMoves f g) = (keySkip b down op s).mapTimersMoves f g := by
  unfold keySkip
  split <;> rfl

theorem execLdVxK_mapTimersMoves (x : Reg) (s : State) :
    execLdVxK x (s.mapTimersMoves f g) = Result.mapNext (·.mapTimersMoves f g) (execLdVxK x s) := by
  have hkeys : (s.mapTimersMoves f g).keys = s.keys := rfl
  unfold execLdVxK
  rw [hkeys]
  cases lowestKey s.keys <;> rfl

/-- With other listed moves, and, unless the instruction uses a timer, with other timers, an instruction does the same. -/
theorem exec_mapTimersMoves (s : State) : ∀ i : Instr, (i.usesTimer = true → f = id) →
    exec i (s.mapTimersMoves f g) = Result.mapNext (·.mapTimersMoves f g) (exec i s)
  | .ret, _ => execRet_mapTimersMoves f g s
  | .call nnn, _ => execCall_mapTimersMoves f g nnn s
  | .skp _, _ | .sknp _, _ => congrArg Host.Outcome.next (keySkip_mapTimersMoves f g _ _ _ s)
  | .ldVxK x, _ => execLdVxK_mapTimersMoves f g x s
  | .drw _ _ _, _ | .ldB _, _ | .ldMemVx _, _ | .ldVxMem _, _ => Result.mapNext_rangeCheck rfl rfl
  | .ldVxDt _, h | .ldDtVx _, h | .ldStVx _, h => by rw [h rfl]; rfl
  | .cls, _ | .jp _, _ | .jpV0 _, _ | .seImm _ _, _ | .sneImm _ _, _ | .seReg _ _, _ | .sneReg _ _, _ => rfl
  | .ldImm _ _, _ | .addImm _ _, _ | .ldReg _ _, _ | .or _ _, _ | .and _ _, _ | .xor _ _, _ | .add _ _, _ => rfl
  | .sub _ _, _ | .shr _ _, _ | .subn _ _, _ | .shl _ _, _ | .rnd _ _, _ | .ldI _, _ | .addI _, _ | .ldF _, _ => rfl

end

/-! ### A tick and an instruction (R109, R230) -/

theorem timerTick_running (h : s.halted = false) : s.timerTick = s.mapTimersMoves countDown id :=
  if_neg (by rw [h]; decide)

/-- Settles O51: on a running core a tick is a change of the two timers. -/
theorem tickCommutesWithUntimedInstructions : Obligations.TickCommutesWithUntimedInstructions := by
  intro i s t hs hi hexec ht
  have huntimed : i.usesTimer = true → countDown = id := by rw [Instr.not_usesTimer_of_ne hi]; exact nofun
  rw [timerTick_running hs, timerTick_running ht, exec_mapTimersMoves _ _ s i huntimed, hexec]
  rfl

/-! ### A list of moves (R100, R109) -/

/-- The CPU's step is the same with other moves listed. -/
theorem cpuStep_mapMoves (g : List Event → List Event) (s : State) :
    cpuStep (s.mapTimersMoves id g) = Result.mapNext (·.mapTimersMoves id g) (cpuStep s) := by
  have hfetch : (s.mapTimersMoves id g).fetch = s.fetch := rfl
  cases hr : s.halted with
  | true => rw [cpuStep_halted hr, cpuStep_halted (s := s.mapTimersMoves id g) hr]; rfl
  | false =>
    have hr' : (s.mapTimersMoves id g).halted = false := hr
    obtain ⟨a, hf, hc⟩ | ⟨op, r, hf, hd, hc⟩ | ⟨op, i, hf, hd, hc⟩ := cpuStep_cases hr <;> rw [hc]
    · exact cpuStep_fetchFault hr' (hfetch.trans hf)
    · exact cpuStep_unrecognized hr' (hfetch.trans hf) hd
    · rw [cpuStep_exec hr' (hfetch.trans hf) hd]
      exact exec_mapTimersMoves id g s i fun _ => rfl

theorem timerTick_mapMoves (g : List Event → List Event) (s : State) :
    (s.mapTimersMoves id g).timerTick = s.timerTick.mapTimersMoves id g := by
  cases hr : s.halted with
  | true => rw [timerTick_halted hr]; exact timerTick_halted (s := s.mapTimersMoves id g) hr
  | false => rw [timerTick_running hr]; exact timerTick_running (s := s.mapTimersMoves id g) hr

/-- No move of an agent reads or writes the moves listed after it. -/
theorem agentStep_mapMoves (g : List Event → List Event) (e : Event) (s : State) :
    agentStep e (s.mapTimersMoves id g) = Result.mapNext (·.mapTimersMoves id g) (agentStep e s) := by
  cases e with
  | cpuStep => exact cpuStep_mapMoves g s
  | timerTick => exact congrArg Host.Outcome.next (timerTick_mapMoves g s)
  | setKeys k => rfl
  | reset rom f =>
    simp only [agentStep]
    split <;> rfl

/-- Settles O45, by induction on the list: its first move is made with the others listed before the old ones. -/
theorem everySequenceOfMovesIsARun : Obligations.EverySequenceOfMovesIsARun := by
  intro es s
  induction es generalizing s with
  | nil => exact coreRun_zero s
  | cons e es ih =>
    have hstep : step { s with schedule := e :: es ++ s.schedule } =
        Result.mapNext (·.mapTimersMoves id (es ++ ·)) (agentStep e s) :=
      (step_of_listed rfl).trans (agentStep_mapMoves _ e s)
    unfold takeMoves
    cases hm : agentStep e s with
    | next t => rw [hm] at hstep; exact (coreRun_next hstep).trans (ih t)
    | fault f => cases f
    | refused r => rw [hm] at hstep; exact coreRun_refused hstep

end Sys2Proof.Machine
end

section
/-! SUPPORT. The rows of the opcode map as `Selects` (R84, R85): a word that its fields make up again decodes to the instruction
those fields name, one lemma for each shape of operand that a row has. -/

namespace Sys2Proof.Machine

/-- A row selects the instruction that encodes back to the word. -/
theorem selects_of_encode {mask value : Word} {f : Word → Instr} (hwf : ∀ w, WellFormed (f w) = true)
    (h : ∀ w, w &&& mask = value → encode (f w) = w) : Selects mask value f := fun w hw =>
  (congrArg decodeWord (h w hw)).symm.trans (decodeWord_encode (hwf w))

/-- A row whose one operand is `NNN`. -/
theorem selects_addr {value : Word} {f : Addr → Instr} (hwf : ∀ nnn, WellFormed (f nnn) = true)
    (hf : ∀ nnn, encode (f nnn) = fieldN0 value ++ nnn) : Selects 0xF000#16 value (fun w => f (fieldNNN w)) :=
  selects_of_encode (fun _ => hwf _) fun _ hw =>
    (hf _).trans (word_of_addr (congrArg BitVec.toNat (fieldN0_of_mask hw rfl)))

/-- A row with the operands `X` and `NN`. -/
theorem selects_regByte {value : Word} {f : Reg → Byte → Instr} (hwf : ∀ x nn, WellFormed (f x nn) = true)
    (hf : ∀ x nn, encode (f x nn) = fieldN0 value ++ nibbleOfReg x ++ nn) :
    Selects 0xF000#16 value (fun w => f (fieldX w) (fieldNN w)) :=
  selects_of_encode (fun _ => hwf _ _) fun _ hw =>
    (hf _ _).trans (word_of_reg (congrArg BitVec.toNat (fieldN0_of_mask hw rfl)) rfl)

/-- A row with the operands `X` and `Y`. -/
theorem selects_regReg {value : Word} {f : Reg → Reg → Instr} (hwf : ∀ x y, WellFormed (f x y) = true)
    (hf : ∀ x y, encode (f x y) = fieldN0 value ++ nibbleOfReg x ++ nibbleOfReg y ++ fieldN3 value) :
    Selects 0xF00F#16 value (fun w => f (fieldX w) (fieldY w)) :=
  selects_of_encode (fun _ => hwf _ _) fun _ hw =>
    (hf _ _).trans (word_of_regReg (congrArg BitVec.toNat (fieldN0_of_mask hw rfl))
      (congrArg BitVec.toNat (fieldN3_of_mask hw rfl)))

/-- A row without operands: the word is the row's value. -/
theorem selects_word {i : Instr} (hwf : WellFormed i = true) : Selects 0xFFFF#16 (encode i) (fun _ => i) :=
  selects_of_encode (fun _ => hwf) fun _ hw => hw.symm.trans BitVec.and_allOnes

/-- The words of the six groups of R87 are rejected by name. -/
theorem decodeWord_of_unlisted {w : Word} (h : UnlistedWord w) : decodeWord w = .error (.unrecognizedOpcode w) := by
  obtain ⟨e, he⟩ := decodeWord_error_iff.2 h
  rw [he, (decodeWord_error he).1]

end Sys2Proof.Machine
end

section
/-! SUPPORT. Control flow (R120 to R129): returns and calls by the state of the stack, jumps, and the four skips that compare
bytes. -/

namespace Sys2Proof.Machine

variable {s : State}

/-! ### Return and call (R121, R123) -/

theorem exec_ret_of_used {k : Fin 16} (h : s.sp = k.succ) :
    exec .ret s = .next { s with sp := k.castSucc, pc := s.stack[k] } := by
  simp only [exec, execRet, s.pop_some k h]
  rfl

theorem exec_ret_of_empty (h : s.sp = 0) : exec .ret s = .next (s.raise .stackUnderflow 0x00EE#16 0#16) := by
  simp only [exec, execRet, s.pop_none h]
  rfl

theorem exec_call_of_room (nnn : Addr) {k : Fin 16} (h : s.sp = k.castSucc) :
    exec (.call nnn) s =
      .next { s with stack := s.stack.set k (s.pc + 2#16), sp := k.succ, pc := zextAddr nnn } := by
  simp only [exec, execCall, s.push_some k h]
  rfl

theorem exec_call_of_full (nnn : Addr) (h : s.sp = 16) :
    exec (.call nnn) s = .next (s.raise .stackOverflow (encode (.call nnn)) 0#16) := by
  simp only [exec, execCall, s.push_none h]

/-- Settles O15: the stack has an entry, which is popped, or it is empty. -/
theorem returnJumpsToThePoppedEntry : Obligations.ReturnJumpsToThePoppedEntry :=
  ⟨selects_word (i := .ret) rfl, fun _ => ⟨fun _ => exec_ret_of_used, exec_ret_of_empty⟩⟩

/-- Settles O17: the stack has room, and a push writes the entry at `SP` alone, or it is full. -/
theorem callPushesTheFollowingAddress : Obligations.CallPushesTheFollowingAddress := by
  refine ⟨selects_addr (fun _ => rfl) (fun _ => rfl), fun s nnn => ⟨fun k hk => ?_, exec_call_of_full nnn⟩⟩
  refine ⟨_, exec_call_of_room nnn hk, rfl, zextAddr_toNat nnn, Vector.getElem_set_self _, fun j hj => ?_⟩
  exact Vector.getElem_set_ne k.isLt j.isLt fun h => hj (Fin.ext h.symm)

/-- Settles O18: a call that does not halt has pushed, and the entry it pushed is the one that is popped. -/
theorem returnUndoesCall : Obligations.ReturnUndoesCall := by
  intro s t nnn _ hcall ht u hstack hsp
  obtain hfull | ⟨k, hk⟩ := s.sp_full_or_room
  · rw [exec_call_of_full nnn hfull] at hcall
    cases hcall
    cases ht
  · rw [exec_call_of_room nnn hk] at hcall
    cases hcall
    have hentry : u.stack[k] = s.pc + 2#16 := by rw [hstack]; exact Vector.getElem_set_self _
    exact ⟨_, exec_ret_of_used hsp, by rw [hk, hentry]⟩

/-! ### Jumps (R122, R128) -/

/-- Settles O16: the target is `NNN` as a number. -/
theorem jumpGoesToItsAddress : Obligations.JumpGoesToItsAddress := by
  refine ⟨selects_addr (fun _ => rfl) (fun _ => rfl), fun s nnn => ?_⟩
  refine ⟨s.setPc (zextAddr nnn), rfl, rfl, zextAddr_toNat nnn, fun hself => ?_, fun hlast => ?_⟩
  · have hpc : zextAddr nnn = s.pc := BitVec.eq_of_toNat_eq ((zextAddr_toNat nnn).trans hself.symm)
    rw [hpc]
    rfl
  · subst hlast
    exact State.fetch_error _ (zextAddr_toNat 0xFFF#12).ge

/-- Settles O21: 16 bits hold the sum. -/
theorem jumpWithOffsetAddsRegisterZero : Obligations.JumpWithOffsetAddsRegisterZero :=
  ⟨selects_addr (fun _ => rfl) (fun _ => rfl),
   fun s nnn => ⟨_, rfl, rfl, zextAddr_add_zextByte_toNat nnn (s.reg 0)⟩⟩

/-! ### Skips (R124 to R127) -/

theorem State.skipIf_beq (s : State) (a b : Byte) :
    s.skipIf (a == b) = { s with pc := if a.toNat = b.toNat then s.pc + 4#16 else s.pc + 2#16 } := by
  by_cases h : a = b
  · rw [beq_iff_eq.2 h, if_pos (congrArg _ h)]
    rfl
  · rw [beq_eq_false_iff_ne.2 h, if_neg (mt BitVec.eq_of_toNat_eq h)]
    rfl

theorem State.skipIf_bne (s : State) (a b : Byte) :
    s.skipIf (a != b) = { s with pc := if a.toNat = b.toNat then s.pc + 2#16 else s.pc + 4#16 } := by
  by_cases h : a = b
  · rw [bne_eq_false_iff_eq.2 h, if_pos (congrArg _ h)]
    rfl
  · rw [bne_iff_ne.2 h, if_neg (mt BitVec.eq_of_toNat_eq h)]
    rfl

/-- A skip that is taken at one of the last two even addresses leads out of memory (R124). -/
theorem State.fetch_skipIf_error {c : Bool} (hc : c = true) (h : s.pc = 0xFFC#16 ∨ s.pc = 0xFFE#16) :
    ∃ a, (s.skipIf c).fetch = .error a := by
  subst hc
  refine ⟨_, State.fetch_error _ ?_⟩
  obtain h | h := h <;> rw [State.skipIf_pc, h] <;> decide

/-- Settles O19: `SE` compares by equality and `SNE` by its negation. -/
theorem skipsOnImmediate : Obligations.SkipsOnImmediate := by
  refine ⟨selects_regByte (fun _ _ => rfl) (fun _ _ => rfl), selects_regByte (fun _ _ => rfl) (fun _ _ => rfl),
    fun s x nn => ⟨congrArg _ (s.skipIf_beq _ nn), congrArg _ (s.skipIf_bne _ nn), fun hpc heq => ?_⟩⟩
  have htaken : (s.reg x == nn) = true := beq_iff_eq.2 (BitVec.eq_of_toNat_eq heq)
  obtain ⟨a, ha⟩ := State.fetch_skipIf_error htaken hpc
  exact ⟨_, a, rfl, ha⟩

/-- Settles O20: as with an immediate; the words with another low nibble are two of the groups of R87. -/
theorem skipsOnRegisters : Obligations.SkipsOnRegisters := by
  refine ⟨selects_regReg (fun _ _ => rfl) (fun _ _ => rfl), selects_regReg (fun _ _ => rfl) (fun _ _ => rfl),
    fun w h0 h3 => decodeWord_of_unlisted ?_, fun s x y => ⟨congrArg _ (s.skipIf_beq _ _), congrArg _ (s.skipIf_bne _ _)⟩⟩
  obtain h5 | h9 := h0
  · exact .inr (.inl ⟨h5, h3⟩)
  · exact .inr (.inr (.inr (.inl ⟨h9, h3⟩)))

end Sys2Proof.Machine
end

section
/-! SUPPORT. Register loads, arithmetic and logic (R138 to R151): an instruction of the family writes one byte to `V[X]`, or one
byte to `V[X]` and then a flag to `VF`, and advances; what is left of each is the value of the byte and of the flag. -/

namespace Sys2Proof.Machine

variable (s : State)

/-! ### The register file after a result (R21 to R23) -/

theorem State.setReg_getElem_self (x : Reg) (b : Byte) : (s.setReg x b).v[x] = b :=
  Vector.getElem_set_self _

theorem State.setReg_getElem_ne {x j : Reg} (b : Byte) (h : j ≠ x) : (s.setReg x b).v[j] = s.v[j] :=
  (s.reg_setReg x j b).trans (if_neg h)

theorem flagByte_toNat (f : Bool) : (flagByte f).toNat = f.toNat := by
  cases f <;> rfl

theorem regResult_setReg (x : Reg) {b : Byte} {r : Nat} (h : b.toNat = r) : RegResult s (s.setReg x b).advance x r :=
  ⟨rfl, (congrArg _ (s.setReg_getElem_self x b)).trans h, fun _ => s.setReg_getElem_ne b⟩

/-- A register that was given a byte has that byte's bits. -/
theorem regResult_setReg_bits (x : Reg) {b : Byte} {bit : Nat → Bool} (h : ∀ k, b.getLsbD k = bit k) :
    RegResult s (s.setReg x b).advance x ((s.setReg x b).advance.v[x]).toNat ∧
      ∀ k < 8, ((s.setReg x b).advance.v[x]).getLsbD k = bit k := by
  have hx : (s.setReg x b).advance.v[x] = b := s.setReg_getElem_self x b
  rw [hx]
  exact ⟨regResult_setReg s x rfl, fun k _ => h k⟩

/-- The flag is written last, so it is what `VF` holds; a destination other than `VF` keeps the result (D6). -/
theorem regFlagResult_setResultThenFlag (x : Reg) {b : Byte} {f f' : Bool} {r : Nat} (hb : b.toNat = r) (hf : f = f') :
    RegFlagResult s (s.setResultThenFlag x b f).advance x r f' := by
  subst hf
  refine ⟨rfl, ?_, fun hx => ?_, fun j hjx hj => ?_⟩
  · exact (congrArg _ (State.setReg_getElem_self _ Reg.vf _)).trans (flagByte_toNat f)
  · exact (congrArg _ ((State.setReg_getElem_ne _ _ hx).trans (s.setReg_getElem_self x b))).trans hb
  · exact (State.setReg_getElem_ne _ _ hj).trans (s.setReg_getElem_ne b hjx)

/-! ### Bytes as numbers (R139) -/

theorem byte_sub_toNat (a b : Byte) : (a - b).toNat = (a.toNat + 256 - b.toNat) % 256 := by
  rw [BitVec.toNat_sub]
  have := b.isLt
  omega

theorem byte_shiftRight_one_toNat (a : Byte) : (a >>> 1).toNat = a.toNat / 2 := by
  rw [BitVec.toNat_ushiftRight, Nat.shiftRight_one]

theorem byte_shiftLeft_one_toNat (a : Byte) : (a <<< 1).toNat = a.toNat * 2 % 256 := by
  rw [BitVec.toNat_shiftLeft, Nat.shiftLeft_eq, pow_one]

theorem shiftedOutRight_eq (a : Byte) : shiftedOutRight a = decide (a.toNat % 2 = 1) :=
  Nat.testBit_zero _

theorem shiftedOutLeft_eq (a : Byte) : shiftedOutLeft a = decide (a.toNat ≥ 128) :=
  (BitVec.msb_eq_getLsbD_last a).symm.trans (BitVec.msb_eq_decide a)

/-! ### Loads, immediate add and logic (R140 to R145) -/

/-- Settles O22: each writes one byte; the addition of bytes is modulo 256. -/
theorem loadsAndImmediateAdd : Obligations.LoadsAndImmediateAdd :=
  ⟨selects_regByte (fun _ _ => rfl) (fun _ _ => rfl), selects_regByte (fun _ _ => rfl) (fun _ _ => rfl),
   selects_regReg (fun _ _ => rfl) (fun _ _ => rfl), fun s x _ nn =>
    ⟨⟨_, rfl, regResult_setReg s x rfl⟩, ⟨_, rfl, regResult_setReg s x (BitVec.toNat_add (s.reg x) nn)⟩,
     ⟨_, rfl, regResult_setReg s x rfl⟩⟩⟩

/-- Settles O23: each writes one byte, whose bits are those of the operation on bytes. -/
theorem logicalOperationsAreBitwise : Obligations.LogicalOperationsAreBitwise :=
  ⟨selects_regReg (fun _ _ => rfl) (fun _ _ => rfl), selects_regReg (fun _ _ => rfl) (fun _ _ => rfl),
   selects_regReg (fun _ _ => rfl) (fun _ _ => rfl), fun s x _ =>
    ⟨⟨_, rfl, regResult_setReg_bits s x fun _ => BitVec.getLsbD_or⟩,
     ⟨_, rfl, regResult_setReg_bits s x fun _ => BitVec.getLsbD_and⟩,
     ⟨_, rfl, regResult_setReg_bits s x fun _ => BitVec.getLsbD_xor⟩⟩⟩

/-! ### Results with a flag (R146 to R150) -/

/-- Settles O24: the flag is the carry of the operands as they were. -/
theorem addSetsCarry : Obligations.AddSetsCarry :=
  ⟨selects_regReg (fun _ _ => rfl) (fun _ _ => rfl), fun s x _ =>
    ⟨_, rfl, regFlagResult_setResultThenFlag s x (BitVec.toNat_add _ _) rfl⟩⟩

/-- Settles O25: the difference of bytes is modulo 256, and the flag compares the operands as they were. -/
theorem subtractSetsNoBorrow : Obligations.SubtractSetsNoBorrow :=
  ⟨selects_regReg (fun _ _ => rfl) (fun _ _ => rfl), fun s x _ =>
    ⟨_, rfl, regFlagResult_setResultThenFlag s x (byte_sub_toNat _ _) rfl⟩⟩

/-- Settles O26: as `SUB` with the operands exchanged. -/
theorem reversedSubtractSetsNoBorrow : Obligations.ReversedSubtractSetsNoBorrow :=
  ⟨selects_regReg (fun _ _ => rfl) (fun _ _ => rfl), fun s x _ =>
    ⟨_, rfl, regFlagResult_setResultThenFlag s x (byte_sub_toNat _ _) rfl⟩⟩

/-- Settles O27: the flag is bit 0 or bit 7 of the byte before the shift; neither meaning reads its `Y` field. -/
theorem shiftsDropOneBitIntoTheFlag : Obligations.ShiftsDropOneBitIntoTheFlag :=
  ⟨selects_regReg (fun _ _ => rfl) (fun _ _ => rfl), selects_regReg (fun _ _ => rfl) (fun _ _ => rfl), fun s x _ =>
    ⟨⟨_, rfl, regFlagResult_setResultThenFlag s x (byte_shiftRight_one_toNat _) (shiftedOutRight_eq _)⟩,
     ⟨_, rfl, regFlagResult_setResultThenFlag s x (byte_shiftLeft_one_toNat _) (shiftedOutLeft_eq _)⟩,
     fun _ => ⟨rfl, rfl⟩⟩⟩

/-! ### Random byte (R151) -/

/-- Settles O28: the byte written is the free byte AND `NN`, whatever was drawn. -/
theorem randomByteIsMasked : Obligations.RandomByteIsMasked := by
  refine ⟨selects_regByte (fun _ _ => rfl) (fun _ _ => rfl), fun s x nn => ?_⟩
  have hx : (s.setReg x (s.randomByte &&& nn)).drawRandom.advance.v[x] = (Config.randByte s.randIndex &&& nn) :=
    s.setReg_getElem_self x _
  refine ⟨_, rfl, rfl, hx, fun k _ hk => ?_, fun _ => s.setReg_getElem_ne _⟩
  rw [hx, BitVec.getLsbD_and, hk, Bool.and_false]

end Sys2Proof.Machine
end

section
/-! SUPPORT. Index register and memory (R158 to R165): what `I` becomes, the bytes a store leaves and the registers a load
leaves, and the range fault that comes before every effect (R159). -/

namespace Sys2Proof.Machine

variable {s : State}

/-- A row with the operand `X` and a fixed low byte. -/
theorem selects_reg {value : Word} {f : Reg → Instr} (hwf : ∀ x, WellFormed (f x) = true)
    (hf : ∀ x, encode (f x) = fieldN0 value ++ nibbleOfReg x ++ fieldNN value) :
    Selects 0xF0FF#16 value (fun w => f (fieldX w)) :=
  selects_of_encode (fun _ => hwf _) fun _ hw =>
    (hf _).trans (word_of_reg (congrArg BitVec.toNat (fieldN0_of_mask hw rfl))
      (congrArg BitVec.toNat (fieldNN_of_mask hw rfl)))

/-! ### Writing the index register (R160 to R162) -/

/-- Settles O29: 16 bits hold `NNN`. -/
theorem indexIsLoaded : Obligations.IndexIsLoaded :=
  ⟨selects_addr (fun _ => rfl) (fun _ => rfl), fun _ nnn => ⟨_, rfl, rfl, zextAddr_toNat nnn⟩⟩

/-- Glyphs are five bytes apart from address 0 (R60; D2). -/
theorem glyphAddress_toNat (b : Byte) : (glyphAddress b).toNat = 5 * (b.toNat % 16) := by
  have hnibble : (b &&& 0x0F#8).toNat = b.toNat % 16 := Nat.and_two_pow_sub_one_eq_mod b.toNat 4
  rw [glyphAddress, hnibble, BitVec.toNat_ofNat, fontBase, glyphBytes]
  omega

/-- Settles O30: the address is a function of `V[X]`, which another memory leaves alone. -/
theorem glyphAddressIsLoaded : Obligations.GlyphAddressIsLoaded := by
  refine ⟨selects_reg (fun _ => rfl) (fun _ => rfl), fun s x => ⟨⟨_, rfl, rfl, glyphAddress_toNat _⟩, fun t m h => ?_⟩⟩
  cases h
  rfl

/-- The overflow flag as a number (R161). -/
theorem flagByte_indexOverflow_toNat (w : Word) (a : Byte) :
    (flagByte (indexOverflow w a)).toNat = if w.toNat + a.toNat > 0xFFF then 1 else 0 :=
  (flagByte_toNat _).trans (Bool.cond_decide _ _ _)

/-- Settles O31: 16 bits hold the reduced sum, and `VF` is the one register written. -/
theorem addToIndexSetsOverflow : Obligations.AddToIndexSetsOverflow := by
  refine ⟨selects_reg (fun _ => rfl) (fun _ => rfl), fun s x => ⟨_, rfl, rfl, ?_, ?_, fun j => ?_⟩⟩
  · exact Nat.mod_eq_of_lt ((Nat.mod_lt _ (by decide)).trans (by decide : 4096 < 2 ^ 16))
  · exact (congrArg _ (State.setReg_getElem_self _ Reg.vf _)).trans (flagByte_indexOverflow_toNat _ _)
  · exact State.setReg_getElem_ne _ _

/-! ### The range check (R159) -/

/-- An access to `I` up to `I + k` with its last address above 0xFFF is a fault and has no other effect. -/
theorem rangeCheck_fault {k : Nat} (h : s.i.toNat + k > 0xFFF) (op : Word) (t : State) :
    (if outOfRange (s.ea 0) (k + 1) then .next (s.raiseRange op) else .next t : Result) =
      .next (s.faultEntry .memOutOfRange op 0x1000#16) :=
  if_pos (by rw [outOfRange_iff, State.ea]; omega)

/-! ### Stores (R163, R164) -/

theorem State.byteAfterDigits_outside {x : Reg} {a : Nat} (ha : a < s.i.toNat ∨ s.i.toNat + 2 < a) :
    s.byteAfterDigits x a = (s.byteAt a).toNat := by
  rw [State.byteAfterDigits, if_neg (by omega), if_neg (by omega), if_neg (by omega)]

theorem State.byteAfterDigits_inside (s : State) (x : Reg) :
    s.byteAfterDigits x s.i.toNat = (s.v[x]).toNat / 100 ∧
    s.byteAfterDigits x (s.i.toNat + 1) = (s.v[x]).toNat / 10 % 10 ∧
    s.byteAfterDigits x (s.i.toNat + 2) = (s.v[x]).toNat % 10 := by
  simp [State.byteAfterDigits]

/-- Settles O32: the three stored bytes are the digits, and a store leaves the bytes outside it. -/
theorem decimalDigitsAreStored : Obligations.DecimalDigitsAreStored := by
  refine ⟨selects_reg (fun _ => rfl) (fun _ => rfl), fun s x => ⟨fun h => ?_, fun h => rangeCheck_fault h _ _⟩⟩
  obtain ⟨hhundreds, htens, hones⟩ := s.byteAfterDigits_inside x
  exact ⟨_, exec_ldB_in_range h, rfl, (read_store_decimalDigits h _).trans hhundreds,
    (read_store_decimalDigits h _).trans htens, (read_store_decimalDigits h _).trans hones,
    fun a ha => BitVec.eq_of_toNat_eq ((read_store_decimalDigits h a).trans (State.byteAfterDigits_outside ha))⟩

theorem State.byteAfterRegs_inside {x k : Reg} (hk : k ≤ x) : s.byteAfterRegs x (s.i.toNat + k.val) = s.v[k] := by
  have hle : k.val ≤ x.val := hk
  rw [State.byteAfterRegs, if_pos (by omega), Nat.add_sub_cancel_left]
  simp [List.getD_eq_getElem?_getD]

theorem State.byteAfterRegs_outside {x : Reg} {a : Nat} (ha : a < s.i.toNat ∨ s.i.toNat + x.val < a) :
    s.byteAfterRegs x a = s.byteAt a :=
  if_neg (by omega)

/-- Settles O33: the byte at `I + k` is `V[k]`, and a store leaves the bytes outside it. -/
theorem registersAreStored : Obligations.RegistersAreStored := by
  refine ⟨selects_reg (fun _ => rfl) (fun _ => rfl), fun s x => ⟨fun h => ?_, fun h => rangeCheck_fault h _ _⟩⟩
  refine ⟨_, exec_ldMemVx_in_range h, rfl, fun k hk => ?_, fun a ha => ?_⟩
  · exact (read_store_regsUpTo h _).trans (State.byteAfterRegs_inside hk)
  · exact (read_store_regsUpTo h a).trans (State.byteAfterRegs_outside ha)

/-! ### Loads (R165) -/

/-- `FX65` in range (R165). -/
theorem exec_ldVxMem_in_range {x : Reg} (h : s.i.toNat + x.val ≤ 0xFFF) :
    exec (.ldVxMem x) s = .next (s.setRegs (loadRegs s.mem (s.ea 0) (x.val + 1) s.v)).advance :=
  if_neg (by rw [outOfRange_iff, State.ea]; omega)

/-- Settles O34: the loaded registers are those with a number below `X + 1`. -/
theorem registersAreLoaded : Obligations.RegistersAreLoaded := by
  refine ⟨selects_reg (fun _ => rfl) (fun _ => rfl), fun s x => ⟨fun h => ?_, fun h => rangeCheck_fault h _ _⟩⟩
  refine ⟨_, exec_ldVxMem_in_range h, rfl, fun k => (loadRegs_getElem _ _ _ k _).trans ?_⟩
  exact if_congr Nat.lt_succ_iff rfl rfl

/-- Settles O35: the load reads the bytes that the store left from the same `I` up. -/
theorem storeThenLoadRestoresRegisters : Obligations.StoreThenLoadRestoresRegisters := by
  intro s t x v h hstore
  obtain ⟨t', hstored, hframe, hbytes, -⟩ := (registersAreStored.2 s x).1 h
  cases hstored.symm.trans hstore
  have hi : t.i = s.i := by rw [hframe]
  obtain ⟨u, hload, -, hregs⟩ := (registersAreLoaded.2 { t with v := v } x).1 (hi ▸ h)
  refine ⟨u, hload, fun k => (hregs k).trans ?_⟩
  split
  · next hk => rw [hi]; exact hbytes k hk
  · rfl

end Sys2Proof.Machine
end

section
/-! SUPPORT. The display (R180 to R185): CLS, what one `DXYN` leaves, and the laws of drawing the same sprite again. What a
draw leaves is said once, in the terms of `State.spriteCovers`; the laws use that and not the loop. -/

namespace Sys2Proof.Machine

variable {s t : State} {x y : Reg} {n : Nat}

/-! ### Clear (R181) -/

/-- Settles O37: the cleared surface has no pixel on. -/
theorem clearTurnsEveryPixelOff : Obligations.ClearTurnsEveryPixelOff :=
  ⟨selects_word (i := .cls) rfl, fun _ => ⟨_, rfl, rfl, fun px _ py _ => Framebuffer.getPixel_allOff px py⟩⟩

/-! ### One draw (R182, R183, R185) -/

/-- What the loop of R183 makes of the surface, and the collision flag it ends with. -/
def State.drawSprite (s : State) (x y : Reg) (n : Nat) : Framebuffer × Bool :=
  drawRows (spriteColumn (s.reg x)) (spriteRow (s.reg y)) (s.mem.load (s.ea 0) n) (s.fb, false)

/-- `DXYN` with all its rows in memory (R183). -/
theorem exec_drw_in_range (x y : Reg) (h : n = 0 ∨ s.i.toNat + n - 1 ≤ 0xFFF) :
    exec (.drw x y n) s =
      .next ((s.setSurface (s.drawSprite x y n).1).setFlag (s.drawSprite x y n).2).present.advance :=
  if_neg (by rw [outOfRange_iff, State.ea]; omega)

/-- The sprite that the loop draws is the one R182 describes. -/
theorem spriteHits_eq_spriteCovers (s : State) (x y : Reg) (n px py : Nat) :
    spriteHits (spriteColumn (s.reg x)) (spriteRow (s.reg y)) (s.mem.load (s.ea 0) n) px py = s.spriteCovers x y n px py := by
  simp only [spriteHits, State.spriteCovers, Memory.load_length, Memory.load_getD, spriteBit, spriteColumn, spriteRow,
    State.reg, State.ea, State.byteAt, Nat.add_zero]
  rw [Bool.eq_iff_iff]
  simp only [Bool.and_eq_true, decide_eq_true_eq]
  constructor
  · rintro ⟨hpos, hbit⟩
    rw [if_pos (by omega)] at hbit
    exact ⟨by omega, hbit⟩
  · rintro ⟨hpos, hbit⟩
    rw [if_pos (by omega)]
    exact ⟨by omega, hbit⟩

theorem State.drawSprite_getPixel (s : State) (x y : Reg) (n px py : Nat) :
    (s.drawSprite x y n).1.getPixel px py = (s.pixel px py ^^ s.spriteCovers x y n px py) := by
  rw [← spriteHits_eq_spriteCovers]
  exact drawRows_getPixel ..

theorem State.on_surface_of_spriteCovers {px py : Nat} (h : s.spriteCovers x y n px py = true) : px < 64 ∧ py < 32 := by
  simp only [State.spriteCovers, Bool.and_eq_true, decide_eq_true_eq] at h
  omega

/-- A set bit of the sprite meets a lit pixel. -/
def State.SpriteCollides (s : State) (x y : Reg) (n : Nat) : Prop :=
  ∃ px < 64, ∃ py < 32, s.spriteCovers x y n px py = true ∧ s.pixel px py = true

theorem State.drawSprite_collision (s : State) (x y : Reg) (n : Nat) :
    (s.drawSprite x y n).2 = true ↔ s.SpriteCollides x y n := by
  rw [State.drawSprite, drawRows_collision]
  simp only [spriteHits_eq_spriteCovers, Bool.false_eq_true, false_or]
  constructor
  · rintro ⟨px, py, hcovers, hlit⟩
    obtain ⟨hpx, hpy⟩ := State.on_surface_of_spriteCovers hcovers
    exact ⟨px, hpx, py, hpy, hcovers, hlit⟩
  · rintro ⟨px, -, py, -, hcovers, hlit⟩
    exact ⟨px, py, hcovers, hlit⟩

/-- What a completed `DXYN` leaves (R183, R185). -/
structure DrawResult (s t : State) (x y : Reg) (n : Nat) : Prop where
  frame : t = { s with fb := t.fb, v := t.v, pc := s.pc + 2#16, presentCount := s.presentCount + 1 }
  pixel : ∀ px py, t.pixel px py = (s.pixel px py ^^ s.spriteCovers x y n px py)
  flag_of_hit : s.SpriteCollides x y n → t.v[(15 : Reg)] = 1#8
  flag_of_miss : ¬ s.SpriteCollides x y n → t.v[(15 : Reg)] = 0#8
  reg : ∀ j : Reg, j ≠ 15 → t.v[j] = s.v[j]

theorem exec_drw_result (s : State) (x y : Reg) (h : n = 0 ∨ s.i.toNat + n - 1 ≤ 0xFFF) :
    ∃ t, exec (.drw x y n) s = .next t ∧ DrawResult s t x y n := by
  have hflag := s.drawSprite_collision x y n
  refine ⟨_, exec_drw_in_range x y h, rfl, s.drawSprite_getPixel x y n, fun hhit => ?_, fun hmiss => ?_,
    fun _ => State.setReg_getElem_ne _ _⟩
  · exact (State.setReg_getElem_self _ Reg.vf _).trans (congrArg flagByte (hflag.2 hhit))
  · exact (State.setReg_getElem_self _ Reg.vf _).trans (congrArg flagByte (Bool.eq_false_iff.2 (mt hflag.1 hmiss)))

/-- An in-range draw completes, in the one state it can. -/
theorem drawResult_of_exec (h : n = 0 ∨ s.i.toNat + n - 1 ≤ 0xFFF) (hexec : exec (.drw x y n) s = .next t) :
    DrawResult s t x y n := by
  obtain ⟨t', hexec', hresult⟩ := exec_drw_result s x y h
  cases hexec.symm.trans hexec'
  exact hresult

theorem DrawResult.i_eq (h : DrawResult s t x y n) : t.i = s.i := by rw [h.frame]

theorem DrawResult.flag_iff (h : DrawResult s t x y n) : t.v[(15 : Reg)] = 1#8 ↔ s.SpriteCollides x y n := by
  refine ⟨fun hone => ?_, h.flag_of_hit⟩
  by_contra hmiss
  exact absurd (hone.symm.trans (h.flag_of_miss hmiss)) (by decide)

theorem encode_drw_fields {w : Word} (h : w &&& 0xF000#16 = 0xD000#16) :
    encode (.drw (fieldX w) (fieldY w) (fieldN w)) = w :=
  word_of_regReg (congrArg BitVec.toNat (fieldN0_of_mask h rfl)) (congrArg BitVec.toNat (ofNat_fieldN w).symm)

/-- Settles O38: `DrawResult` says what an in-range draw leaves, and the range check comes before every effect. -/
theorem spriteIsDrawnByExclusiveOr : Obligations.SpriteIsDrawnByExclusiveOr := by
  refine ⟨selects_of_encode (fun w => decide_eq_true (fieldN3 w).isLt) fun _ => encode_drw_fields,
    fun s x y n => ⟨fun h => ?_, fun ⟨hn, h⟩ => ?_⟩⟩
  · obtain ⟨t, hexec, hframe, hpixel, hhit, hmiss, hreg⟩ := exec_drw_result s x y h
    exact ⟨t, hexec, hframe, fun px _ py _ => hpixel px py, hhit, hmiss, hreg⟩
  · exact if_pos (by rw [outOfRange_iff, State.ea]; omega)

/-! ### Drawing the same sprite again (R184) -/

/-- A draw whose origin registers are not `VF` leaves the sprite it drew as it was. -/
theorem DrawResult.spriteCovers_eq (h : DrawResult s t x y n) (hx : x ≠ 15) (hy : y ≠ 15) :
    t.spriteCovers x y n = s.spriteCovers x y n := by
  have hmem : t.mem = s.mem := by rw [h.frame]
  funext px py
  simp only [State.spriteCovers, State.byteAt, h.reg x hx, h.reg y hy, h.i_eq, hmem]

/-- Exclusive or with the same bits twice. -/
theorem DrawResult.fb_of_twice {u : State} (h : DrawResult s t x y n) (h' : DrawResult t u x y n) (hx : x ≠ 15)
    (hy : y ≠ 15) : u.fb = s.fb :=
  Framebuffer.ext_pixel fun px _ py _ => by
    have htwice := h'.pixel px py
    rw [h.spriteCovers_eq hx hy, h.pixel, Bool.xor_assoc, Bool.xor_self, Bool.xor_false] at htwice
    exact htwice

/-- Over pixels that are off, the drawn pixels are those a next draw of the sprite collides with. -/
theorem DrawResult.collides_iff_of_blank (h : DrawResult s t x y n) (hx : x ≠ 15) (hy : y ≠ 15)
    (hblank : ∀ px < 64, ∀ py < 32, s.spriteCovers x y n px py = true → s.pixel px py = false) :
    t.SpriteCollides x y n ↔ ∃ px < 64, ∃ py < 32, s.spriteCovers x y n px py = true := by
  refine exists_congr fun px => and_congr_right fun hpx => exists_congr fun py => and_congr_right fun hpy => ?_
  rw [h.spriteCovers_eq hx hy, h.pixel]
  exact and_iff_left_of_imp fun hcovers => by rw [hblank px hpx py hpy hcovers, hcovers, Bool.false_xor]

/-- Settles O39: a draw reads the same sprite as the one before it, so two of them cancel, and the third is made on the surface
of the first. -/
theorem redrawingErasesTheSprite : Obligations.RedrawingErasesTheSprite := by
  intro s t u w x y n hx hy h ht hu hw
  have first := drawResult_of_exec h ht
  have second := drawResult_of_exec (first.i_eq ▸ h) hu
  have third := drawResult_of_exec (second.i_eq ▸ first.i_eq ▸ h) hw
  have hrestored : u.fb = s.fb := first.fb_of_twice second hx hy
  have hsprite : u.spriteCovers x y n = s.spriteCovers x y n :=
    (second.spriteCovers_eq hx hy).trans (first.spriteCovers_eq hx hy)
  refine ⟨hrestored, second.fb_of_twice third hx hy, fun hblank => ?_⟩
  have hmiss : ¬ s.SpriteCollides x y n := by
    rintro ⟨px, hpx, py, hpy, hcovers, hlit⟩
    exact absurd ((hblank px hpx py hpy hcovers).symm.trans hlit) Bool.false_ne_true
  refine ⟨first.flag_of_miss hmiss, third.flag_of_miss ?_, second.flag_iff.trans (first.collides_iff_of_blank hx hy hblank)⟩
  simpa only [State.SpriteCollides, State.pixel, hrestored, hsprite] using hmiss

end Sys2Proof.Machine
end

section
/-! SUPPORT. Keypad and timers (R191 to R196, R230, R232): the key tests with and without a key of their number, the wait with
and without a key down, and what ticks take off a timer. -/

namespace Sys2Proof.Machine

variable {s t : State} {n : Nat}

/-! ### Key tests (R191, R192) -/

/-- A byte that is a key number: the skip is taken when the key's flag is the tested one. -/
theorem keySkip_of_key {b : Byte} (h : b.toNat ≤ 15) (down : Bool) (op : Word) :
    keySkip b down op s = s.skipIf (s.keys.getLsbD b.toNat == down) :=
  if_neg (Nat.not_lt.2 h)

/-- A byte above 15 is no key number, and the fault records it (R215). -/
theorem keySkip_of_no_key {b : Byte} (h : b.toNat > 15) (down : Bool) (op : Word) :
    keySkip b down op s = s.faultEntry .invalidKeyIndex op (BitVec.ofNat 16 b.toNat) :=
  (if_pos h).trans (congrArg (s.faultEntry .invalidKeyIndex op) (BitVec.ofNat_toNat 16 b).symm)

theorem State.skipIf_beq_true (s : State) (c : Bool) :
    s.skipIf (c == true) = { s with pc := if c then s.pc + 4#16 else s.pc + 2#16 } := by
  cases c <;> rfl

theorem State.skipIf_beq_false (s : State) (c : Bool) :
    s.skipIf (c == false) = { s with pc := if c then s.pc + 2#16 else s.pc + 4#16 } := by
  cases c <;> rfl

/-- Settles O40: the two tests are one, with the flag tested for 1 or for 0. -/
theorem keyTestsFollowTheKeyFlag : Obligations.KeyTestsFollowTheKeyFlag := by
  refine ⟨selects_reg (fun _ => rfl) (fun _ => rfl), selects_reg (fun _ => rfl) (fun _ => rfl), fun s x =>
    ⟨fun hkey => ⟨congrArg Host.Outcome.next ?_, congrArg Host.Outcome.next ?_⟩,
     fun hnone => ⟨congrArg Host.Outcome.next ?_, congrArg Host.Outcome.next ?_⟩⟩⟩
  · exact (keySkip_of_key hkey _ _).trans (s.skipIf_beq_true _)
  · exact (keySkip_of_key hkey _ _).trans (s.skipIf_beq_false _)
  · exact keySkip_of_no_key hnone _ _
  · exact keySkip_of_no_key hnone _ _

/-! ### Waiting for a key (R193) -/

theorem exec_ldVxK_of_no_key (x : Reg) (h : s.keys = 0#16) : exec (.ldVxK x) s = .next s := by
  have hnone : lowestKey s.keys = none := h ▸ lowestKey_zero
  simp only [exec, execLdVxK, hnone]

theorem exec_ldVxK_of_lowestKey (x : Reg) {k : Nat} (h : lowestKey s.keys = some k) :
    exec (.ldVxK x) s = .next (s.setReg x (BitVec.ofNat 8 k)).advance := by
  simp only [exec, execLdVxK, h]

/-- Settles O41: a snapshot with a key down has a lowest one, whose number a byte holds. -/
theorem keyWaitHoldsOrTakesTheLowestKey : Obligations.KeyWaitHoldsOrTakesTheLowestKey := by
  refine ⟨selects_reg (fun _ => rfl) (fun _ => rfl), fun s x => ⟨exec_ldVxK_of_no_key x, fun hdown => ?_⟩⟩
  obtain ⟨k, hk⟩ := Option.ne_none_iff_exists'.1 fun hnone => hdown (lowestKey_none hnone)
  obtain ⟨hlt, hpressed, hleast⟩ := lowestKey_some hk
  have hbyte : (BitVec.ofNat 8 k).toNat = k := Nat.mod_eq_of_lt (by omega)
  exact ⟨k, hlt, hpressed, hleast, _, exec_ldVxK_of_lowestKey x hk, regResult_setReg s x hbyte⟩

/-! ### Ticks between a write of a timer and its reading (R194, R196, R230, R232) -/

theorem countDown_iterate_toNat (n : Nat) (b : Byte) : (countDown^[n] b).toNat = b.toNat - n := by
  induction n with
  | zero => rfl
  | succ n ih => rw [Function.iterate_succ_apply', countDown_toNat, ih, Nat.sub_sub]

/-- A running core keeps running under ticks, so each of them counts both timers down. -/
theorem timerTick_iterate_running (h : s.halted = false) (n : Nat) :
    State.timerTick^[n] s = s.mapTimersMoves countDown^[n] id := by
  induction n with
  | zero => rfl
  | succ n ih =>
    rw [Function.iterate_succ_apply', ih, timerTick_running (s := s.mapTimersMoves _ id) h, Function.iterate_succ']
    rfl

theorem State.soundOn_iff (s : State) : s.soundOn = true ↔ 0 < s.st.toNat := by
  rw [State.soundOn, bne_iff_ne, Nat.pos_iff_ne_zero]
  exact not_congr BitVec.toNat_inj.symm

/-- Only `FX15` writes the delay timer (R28). -/
theorem dt_of_exec {i : Instr} (h : exec i s = .next t) (hi : ∀ x, i ≠ .ldDtVx x) : t.dt = s.dt := by
  obtain ⟨-, hdt, -⟩ := eachPieceOfStateHasItsWriters i s t h
  by_contra hne
  obtain ⟨x, hx⟩ := hdt hne
  exact hi x hx

/-- In a run without a write of the delay timer only its ticks count. -/
theorem DelayRun.dt_toNat (h : DelayRun s n t) : t.dt.toNat = s.dt.toNat - n := by
  induction h with
  | start => rfl
  | @tick n t _ hr ih =>
    calc t.timerTick.dt.toNat = (countDown t.dt).toNat := by rw [timerTick_running hr]; rfl
      _ = s.dt.toNat - (n + 1) := by rw [countDown_toNat, ih, Nat.sub_sub]
  | instr i _ _ hi hexec ih => rw [dt_of_exec hexec hi, ih]
  | keys k _ ih => exact ih

/-- Settles O42: the delay timer by induction on the run from the write to the reading, the sound timer by the ticks. -/
theorem timerAccessMovesAByte : Obligations.TimerAccessMovesAByte := by
  refine ⟨selects_reg (fun _ => rfl) (fun _ => rfl), selects_reg (fun _ => rfl) (fun _ => rfl),
    selects_reg (fun _ => rfl) (fun _ => rfl), fun s x => ⟨⟨_, rfl, regResult_setReg s x rfl⟩, rfl, rfl⟩, ?_, ?_⟩
  · intro s t u w x y n hwrite hrun hread
    cases hwrite
    cases hread
    exact (congrArg _ (u.setReg_getElem_self y u.dt)).trans hrun.dt_toNat
  · intro s t x n hr hwrite
    cases hwrite
    have hst : ((s.setSound (s.reg x)).advance.mapTimersMoves countDown^[n] id).st.toNat = (s.v[x]).toNat - n :=
      countDown_iterate_toNat n (s.reg x)
    rw [timerTick_iterate_running (s := (s.setSound (s.reg x)).advance) hr, State.soundOn_iff, hst]
    exact Nat.sub_pos_iff_lt

end Sys2Proof.Machine
end

section
/-! SUPPORT. Exceptions (R211 to R232): a word outside the opcode map, what each instruction that halts the core has recorded, and
the timer tick as one move and as many. -/

namespace Sys2Proof.Machine

variable {s t : State} {op : Word}

/-! ### Words outside the opcode map (R212) -/

/-- A word that selects no row of the map has no instruction (R84). -/
theorem decodeWord_error_of_no_row (h : ∀ r ∈ opcodeTable, op &&& r.mask ≠ r.value) : ∃ e, decodeWord op = .error e := by
  cases hd : decodeWord op with
  | error e => exact ⟨e, rfl⟩
  | ok i =>
    obtain ⟨-, hrow, -⟩ := decoderIsTheOpcodeTable
    obtain ⟨r, hr, hsel, -⟩ := hrow op i hd
    exact absurd hsel (h r hr)

/-- Settles O10: the decoder rejects the fetched word, and the step is the fault entry for that. -/
theorem unrecognisedWordFaults : Obligations.UnrecognisedWordFaults := by
  intro s op he hr hf hno
  obtain ⟨e, hd⟩ := decodeWord_error_of_no_row hno
  refine ⟨?_, rfl⟩
  rw [step_of_cpuStep he]
  exact cpuStep_unrecognized (s := s.afterTurn) hr hf hd

/-! ### The faults of instructions (R213 to R216) -/

theorem stackUnderflow_of_halts (hr : s.halted = false) (h : exec .ret s = .next t) (ht : t.halted = true) :
    s.sp = 0 ∧ t = s.raise .stackUnderflow (encode .ret) 0#16 := by
  obtain ⟨hsp, he⟩ | ⟨k, -, he⟩ := execRet_cases s
  · cases he.symm.trans h
    exact ⟨hsp, rfl⟩
  · cases he.symm.trans h
    cases hr.symm.trans ht

theorem stackOverflow_of_halts {nnn : Addr} (hr : s.halted = false) (h : exec (.call nnn) s = .next t)
    (ht : t.halted = true) : s.sp = 16 ∧ t = s.raise .stackOverflow (encode (.call nnn)) 0#16 := by
  obtain ⟨hsp, he⟩ | ⟨k, -, he⟩ := execCall_cases nnn s
  · cases he.symm.trans h
    exact ⟨hsp, rfl⟩
  · cases he.symm.trans h
    cases hr.symm.trans ht

@[simp] theorem zextByte_toNat (b : Byte) : (zextByte b).toNat = b.toNat :=
  BitVec.toNat_setWidth_of_le (by decide)

theorem invalidKeyIndex_of_halts {b : Byte} {down : Bool} (hr : s.halted = false)
    (ht : (keySkip b down op s).halted = true) :
    15 < b.toNat ∧ keySkip b down op s = s.raise .invalidKeyIndex op (zextByte b) := by
  obtain hfault | ⟨-, he⟩ := keySkip_cases b down op s
  · exact hfault
  · rw [he] at ht
    cases hr.symm.trans ht

/-- A range-checked access that halts the core was out of range. -/
theorem memOutOfRange_of_halts {n : Nat} {u : State}
    (h : (if outOfRange (s.ea 0) n then .next (s.raiseRange op) else .next u : Result) = .next t)
    (hu : u.halted = false) (ht : t.halted = true) : (n ≠ 0 ∧ 4096 < s.i.toNat + n) ∧ t = s.raiseRange op := by
  by_cases hout : outOfRange (s.ea 0) n = true
  · rw [if_pos hout] at h
    cases h
    exact ⟨(outOfRange_iff _ _).1 hout, rfl⟩
  · rw [if_neg hout] at h
    cases h
    cases hu.symm.trans ht

theorem execLdVxK_halted {x : Reg} (h : exec (.ldVxK x) s = .next t) : t.halted = s.halted := by
  cases hk : lowestKey s.keys with
  | none => cases (exec_ldVxK_of_no_key x (lowestKey_none hk)).symm.trans h; rfl
  | some k => cases (exec_ldVxK_of_lowestKey x hk).symm.trans h; rfl

/-- Settles O13: eight instructions can fault, one lemma for each shape of them; the others leave a running core running. -/
theorem instructionFaultsAreTheListedOnes : Obligations.InstructionFaultsAreTheListedOnes := by
  intro i s t hr h ht
  cases i with
  | ret =>
    obtain ⟨hsp, rfl⟩ := stackUnderflow_of_halts hr h ht
    exact .inl ⟨rfl, hsp, rfl, rfl, rfl⟩
  | call nnn =>
    obtain ⟨hsp, rfl⟩ := stackOverflow_of_halts hr h ht
    exact .inr (.inl ⟨⟨nnn, rfl⟩, hsp, rfl, rfl, rfl⟩)
  | skp x | sknp x =>
    cases h
    obtain ⟨hkey, he⟩ := invalidKeyIndex_of_halts hr ht
    rw [he]
    exact .inr (.inr (.inl ⟨⟨x, by simp, hkey, zextByte_toNat _⟩, rfl, rfl⟩))
  | drw x y n =>
    obtain ⟨⟨hn, hout⟩, rfl⟩ := memOutOfRange_of_halts h hr ht
    exact .inr (.inr (.inr ⟨.inl ⟨x, y, n, rfl, by omega, by omega⟩, rfl, rfl, rfl⟩))
  | ldB x =>
    obtain ⟨⟨-, hout⟩, rfl⟩ := memOutOfRange_of_halts h hr ht
    exact .inr (.inr (.inr ⟨.inr (.inl ⟨x, rfl, by omega⟩), rfl, rfl, rfl⟩))
  | ldMemVx x | ldVxMem x =>
    obtain ⟨⟨-, hout⟩, rfl⟩ := memOutOfRange_of_halts h hr ht
    exact .inr (.inr (.inr ⟨.inr (.inr ⟨x, by simp, by omega⟩), rfl, rfl, rfl⟩))
  | ldVxK x => cases hr.symm.trans ((execLdVxK_halted h).symm.trans ht)
  | _ =>
    cases h
    cases hr.symm.trans ht

/-! ### The timers (R230 to R232) -/

/-- Settles O43: a tick of a running core counts both timers down, on the state with the turn taken. -/
theorem tickDecrementsBothTimers : Obligations.TickDecrementsBothTimers := by
  intro s hr he
  have hclamp (b : Byte) : (countDown b).toNat = if b.toNat > 0 then b.toNat - 1 else 0 := by
    rw [countDown_toNat]
    split <;> omega
  refine ⟨s.afterTurn.mapTimersMoves countDown id, ?_, rfl, hclamp s.dt, hclamp s.st⟩
  rw [step_of_timerTick he, timerTick_running (s := s.afterTurn) hr]

/-- Settles O44: `n` ticks are `n` decrements of each timer. -/
theorem countdownTakesAsManyTicksAsItsValue : Obligations.CountdownTakesAsManyTicksAsItsValue := by
  intro s n hr
  rw [timerTick_iterate_running hr, State.soundOn_iff]
  have hst : (s.mapTimersMoves countDown^[n] id).st.toNat = s.st.toNat - n := countDown_iterate_toNat n s.st
  refine ⟨countDown_iterate_toNat n s.dt, hst, ?_⟩
  rw [hst]
  exact Nat.sub_pos_iff_lt

end Sys2Proof.Machine
end

section
/-! SUPPORT. The first fetch after reset (R253): the image's first word, or with an empty image the zeros that memory holds. -/

namespace Sys2Proof.Machine

/-- With an empty image the two bytes at 0x200 are memory's zeros (R41, R253). -/
theorem State.fetch_reset : State.reset.fetch = .ok 0#16 := by
  have hzero {a : Nat} (ha : 80 ≤ a) : State.reset.byteAt a = 0#8 := Memory.initial_of_le ha
  rw [State.fetch_of_pc (s := State.reset) (a := 0x200) rfl (by omega), hzero (by omega), hzero (by omega)]
  exact congrArg _ (by decide : wordOfBytes 0#8 0#8 = 0#16)

/-- Settles O56: the word at offset 0 of the image; with no image, the word 0, which selects no row of the opcode map. -/
theorem firstFetchReadsTheImage : Obligations.FirstFetchReadsTheImage := by
  refine ⟨fun s hi lo rest f h => ?_, fun es => ?_⟩
  · have hlen : (hi :: lo :: rest).length = rest.length + 2 := rfl
    have hfetch := s.fetch_resetWith_setPc f (rom := hi :: lo :: rest) (k := 0) (by omega) (by omega) (p := 0x200#16) rfl
    rw [State.setPc_romBase_resetWith] at hfetch
    exact ⟨_, hfetch, toNat_wordOfBytes hi lo⟩
  · have hno : ∀ r ∈ opcodeTable, 0#16 &&& r.mask ≠ r.value := by decide
    obtain ⟨hstep, -⟩ := unrecognisedWordFaults { State.reset with schedule := .cpuStep :: es } 0#16 rfl rfl
      State.fetch_reset hno
    exact hstep

end Sys2Proof.Machine
end
